-- ==== Sys2Proof/Word.lean ====
section
/-! DEFINITION. The widths of the framer's data: bytes (R12) and 32-bit command words (R62). -/

namespace Sys2Proof

/-- An unsigned 8-bit data value (R12): a received byte, a payload byte, a check value. -/
abbrev Byte := BitVec 8

/-- A 32-bit value: a command word (R62) or a response's value field (R66). Bit 0 is the least
significant bit (R13). -/
abbrev Word := BitVec 32

end Sys2Proof
end

