-- ==== Sys2Proof/Config.lean ====
section
/-! DEFINITION. The parameters an instance is built with (R10). No command writes them (R20, R183). -/

namespace Sys2Proof

/-- The error-detection codec of an instance (R10, R16): CRC-4, parity with a permanent error latch,
parity with a self-clearing one. -/
inductive Codec where
  | crc4
  | par1
  | par2
deriving DecidableEq, Repr

/-- MAX_BUF (R10): `UNBOUNDED`, or the largest number of bytes the receive buffer holds. -/
inductive MaxBuf where
  | unbounded
  | finite (limit : Nat)
deriving DecidableEq, Repr

/-- The parameters of one instance (R10, R20's `Config`). -/
structure Config where
  codec : Codec
  maxBuf : MaxBuf
deriving DecidableEq, Repr

/-- A finite MAX_BUF is a positive integer (R10). -/
def Config.wf (c : Config) : Bool :=
  match c.maxBuf with
  | .unbounded => true
  | .finite limit => decide (0 < limit)

/-- MAX_BUF allows a buffer of `n` bytes (R12). -/
def MaxBuf.Admits (m : MaxBuf) (n : Nat) : Prop :=
  match m with
  | .unbounded => True
  | .finite limit => n ≤ limit

end Sys2Proof
end

