-- ==== Sys2Proof/Syntax.lean ====
section
/-! DEFINITION. The commands of the framer: one constructor per row of spec/opcode_table.json. -/

namespace Sys2Proof

/-- A command (R63). A reserved opcode keeps the 28 bits below it, because every word with that opcode
is a word of the row (R65). -/
inductive Instr where
  /-- 0x0, R180 -/
  | nop
  /-- 0x1, R181 -/
  | reset
  /-- 0x2, R141 -/
  | rxb (a : Byte)
  /-- 0x3, R140 -/
  | append (a : Byte)
  /-- 0x4, R142 -/
  | feed
  /-- 0x5, R122 -/
  | txsof
  /-- 0x6, R123 -/
  | txd (a : Byte)
  /-- 0x7, R124 -/
  | txeof
  /-- 0x8, R110 -/
  | chk (a : Byte)
  /-- 0x9, R111 -/
  | vfy (a b : Byte)
  /-- 0xA, R182 -/
  | stat
  /-- 0xB, R65 -/
  | reservedB (low : BitVec 28)
  /-- 0xC, R65 -/
  | reservedC (low : BitVec 28)
  /-- 0xD, R65 -/
  | reservedD (low : BitVec 28)
  /-- 0xE, R65 -/
  | reservedE (low : BitVec 28)
  /-- 0xF, R65 -/
  | reservedF (low : BitVec 28)
deriving DecidableEq, Repr

end Sys2Proof
end

