-- ==== Sys2Proof/Machine/Operands.lean ====
section
/-! DEFINITION. The fields of a command word and the operand forms (R62, R64). -/

namespace Sys2Proof.Machine

/-- OP, bits 31:28 (R62). -/
def fieldOp (w : Word) : BitVec 4 := w.extractLsb' 28 4

/-- RSV, bits 27:16 (R62). -/
def fieldRsv (w : Word) : BitVec 12 := w.extractLsb' 16 12

/-- A, the first byte operand, bits 15:8 (R62). -/
def fieldA (w : Word) : Byte := w.extractLsb' 8 8

/-- B, the second byte operand, bits 7:0 (R62). -/
def fieldB (w : Word) : Byte := w.extractLsb' 0 8

/-- The 28 bits below OP, which a reserved opcode leaves free (R65). -/
def fieldLow (w : Word) : BitVec 28 := w.extractLsb' 0 28

/-- The command word with the given four fields (R62). -/
def mkWord (op : BitVec 4) (rsv : BitVec 12) (a b : Byte) : Word := op ++ rsv ++ a ++ b

/-- The command word with the given opcode and the given 28 bits below it. -/
def mkReservedWord (op : BitVec 4) (low : BitVec 28) : Word := op ++ low

/-- `zext_32` of a byte (R13): operands and check values are unsigned, never sign-extended (R64). -/
def zext32 (b : Byte) : Word := b.setWidth 32

end Sys2Proof.Machine
end

