-- ==== Sys2Proof/WellFormed.lean ====
section
/-! DEFINITION. Which commands and which command words are legal (R64, R65). -/

namespace Sys2Proof

/-- A command of an assigned opcode. A reserved opcode is never legal (R65, R73). Operands need no
check: every byte value is an operand (R64). -/
def Instr.wf : Instr → Bool
  | .nop | .reset | .rxb _ | .append _ | .feed | .txsof | .txd _ | .txeof | .chk _ | .vfy _ _ | .stat => true
  | .reservedB _ | .reservedC _ | .reservedD _ | .reservedE _ | .reservedF _ => false

/-- The opcodes whose command reads operand A (R63's column "operands used"). -/
def usesA (op : BitVec 4) : Bool :=
  op = 0x2#4 ∨ op = 0x3#4 ∨ op = 0x6#4 ∨ op = 0x8#4 ∨ op = 0x9#4

/-- The opcodes whose command reads operand B (R63). -/
def usesB (op : BitVec 4) : Bool := op = 0x9#4

/-- The check of R64 and R65 on a command word: an assigned opcode, RSV = 0, and every operand field
that the opcode does not use equal to 0. -/
def wordWellFormed (w : Word) : Bool :=
  (Machine.fieldOp w).toNat ≤ 0xA
    ∧ Machine.fieldRsv w = 0
    ∧ (usesA (Machine.fieldOp w) ∨ Machine.fieldA w = 0)
    ∧ (usesB (Machine.fieldOp w) ∨ Machine.fieldB w = 0)

end Sys2Proof
end

