-- ==== Sys2Proof/Decode.lean ====
section
/-! DEFINITION. The decoder of R72, total on every 32-bit word, the encoder, and the opcode table of
spec/opcode_table.json as masks and patterns. -/

namespace Sys2Proof

/-- Why a word of an assigned opcode is illegal (R64). -/
inductive IllegalWord where
  /-- RSV is not 0. Safe: the step answers ILLEGAL, as R65 says. -/
  | reservedBits
  /-- Operand field A is not 0 and the opcode does not use it. Safe: as above. -/
  | unusedA
  /-- Operand field B is not 0 and the opcode does not use it. Safe: as above. -/
  | unusedB
deriving DecidableEq, Repr

/-- R64 for a command that uses neither operand. -/
def decodeNone (w : Word) (i : Instr) : Except IllegalWord Instr :=
  if Machine.fieldRsv w ≠ 0 then .error .reservedBits
  else if Machine.fieldA w ≠ 0 then .error .unusedA
  else if Machine.fieldB w ≠ 0 then .error .unusedB
  else .ok i

/-- R64 for a command that uses operand A only. -/
def decodeA (w : Word) (i : Byte → Instr) : Except IllegalWord Instr :=
  if Machine.fieldRsv w ≠ 0 then .error .reservedBits
  else if Machine.fieldB w ≠ 0 then .error .unusedB
  else .ok (i (Machine.fieldA w))

/-- R64 for a command that uses both operands. -/
def decodeAB (w : Word) (i : Byte → Byte → Instr) : Except IllegalWord Instr :=
  if Machine.fieldRsv w ≠ 0 then .error .reservedBits
  else .ok (i (Machine.fieldA w) (Machine.fieldB w))

/-- R72. A word of a reserved opcode decodes to that opcode's row, whatever stands below the opcode;
its meaning is ILLEGAL, so the order of this test and the RSV test does not matter. OP has four bits,
so the last case is 0xF alone. -/
def decode (w : Word) : Except IllegalWord Instr :=
  match (Machine.fieldOp w).toNat with
  | 0x0 => decodeNone w .nop
  | 0x1 => decodeNone w .reset
  | 0x2 => decodeA w .rxb
  | 0x3 => decodeA w .append
  | 0x4 => decodeNone w .feed
  | 0x5 => decodeNone w .txsof
  | 0x6 => decodeA w .txd
  | 0x7 => decodeNone w .txeof
  | 0x8 => decodeA w .chk
  | 0x9 => decodeAB w .vfy
  | 0xA => decodeNone w .stat
  | 0xB => .ok (.reservedB (Machine.fieldLow w))
  | 0xC => .ok (.reservedC (Machine.fieldLow w))
  | 0xD => .ok (.reservedD (Machine.fieldLow w))
  | 0xE => .ok (.reservedE (Machine.fieldLow w))
  | _ => .ok (.reservedF (Machine.fieldLow w))

/-- The command word of a command: RSV and every unused operand field are 0 (R62, R63, R69). -/
def encode : Instr → Word
  | .nop => Machine.mkWord 0x0 0 0 0
  | .reset => Machine.mkWord 0x1 0 0 0
  | .rxb a => Machine.mkWord 0x2 0 a 0
  | .append a => Machine.mkWord 0x3 0 a 0
  | .feed => Machine.mkWord 0x4 0 0 0
  | .txsof => Machine.mkWord 0x5 0 0 0
  | .txd a => Machine.mkWord 0x6 0 a 0
  | .txeof => Machine.mkWord 0x7 0 0 0
  | .chk a => Machine.mkWord 0x8 0 a 0
  | .vfy a b => Machine.mkWord 0x9 0 a b
  | .stat => Machine.mkWord 0xA 0 0 0
  | .reservedB low => Machine.mkReservedWord 0xB low
  | .reservedC low => Machine.mkReservedWord 0xC low
  | .reservedD low => Machine.mkReservedWord 0xD low
  | .reservedE low => Machine.mkReservedWord 0xE low
  | .reservedF low => Machine.mkReservedWord 0xF low

/-- The command word whose bits are `w`, of which the opcode table gives the lowest `nbits`; the bits
above them are 0. A command is one 32-bit word (R62), whose bit 0 is the least significant (R13). -/
def wordOfBits (nbits w : Nat) : Word := BitVec.ofNat 32 (w % 2 ^ nbits)

/-- What the decoder reads from an instruction whose bits are `w`, numbered as the opcode table numbers
them; none where it refuses the word (R64). -/
def decodeTableWord (nbits w : Nat) : Option Instr :=
  match decode (wordOfBits nbits w) with
  | .ok i => some i
  | .error _ => none

/-- One row of the opcode table: a word is the row's when its bits under `mask` are `pattern`. -/
structure OpcodeRow where
  mnemonic : String
  pattern : Word
  mask : Word
deriving DecidableEq, Repr

/-- Whether a word is a word of the row. -/
def OpcodeRow.matches (r : OpcodeRow) (w : Word) : Bool := w &&& r.mask = r.pattern

/-- The rows of the assigned opcodes, as spec/opcode_table.json gives them. -/
def commandRows : List OpcodeRow :=
  [⟨"NOP", 0x00000000, 0xFFFFFFFF⟩, ⟨"RESET", 0x10000000, 0xFFFFFFFF⟩, ⟨"RXB", 0x20000000, 0xFFFF00FF⟩,
   ⟨"APPEND", 0x30000000, 0xFFFF00FF⟩, ⟨"FEED", 0x40000000, 0xFFFFFFFF⟩, ⟨"TXSOF", 0x50000000, 0xFFFFFFFF⟩,
   ⟨"TXD", 0x60000000, 0xFFFF00FF⟩, ⟨"TXEOF", 0x70000000, 0xFFFFFFFF⟩, ⟨"CHK", 0x80000000, 0xFFFF00FF⟩,
   ⟨"VFY", 0x90000000, 0xFFFF0000⟩, ⟨"STAT", 0xA0000000, 0xFFFFFFFF⟩]

/-- The rows of the reserved opcodes, as spec/opcode_table.json gives them. -/
def reservedRows : List OpcodeRow :=
  [⟨"reserved_0xB", 0xB0000000, 0xF0000000⟩, ⟨"reserved_0xC", 0xC0000000, 0xF0000000⟩,
   ⟨"reserved_0xD", 0xD0000000, 0xF0000000⟩, ⟨"reserved_0xE", 0xE0000000, 0xF0000000⟩,
   ⟨"reserved_0xF", 0xF0000000, 0xF0000000⟩]

end Sys2Proof
end

