-- ==== Sys2Proof/Machine/State.lean ====
section
/-! DEFINITION. The state of one framer instance (R20), the response record (R66), and the reasons a
step could stop for. -/

namespace Sys2Proof.Machine

/-- Result codes (R67). The 4-bit numbers are `ResultCode.bits`. -/
inductive ResultCode where
  | ok
  | frameReady
  | incomplete
  | frameError
  | noStart
  | latched
  | illegal
deriving DecidableEq, Repr

/-- Diagnostic kinds (R68). The numbers are `Diag.bits`. A diagnostic records only its kind (R213). -/
inductive Diag where
  | checkMismatch
  | stopCorrupted
  | overflow
deriving DecidableEq, Repr

/-- The response of one command (R66). `diags` is a side channel outside the contract (R68). -/
structure Response where
  code : ResultCode
  value : Word
  bytes : List Byte
  diags : List Diag
deriving DecidableEq, Repr

/-- One framer instance. `buf` and `latch` are its state (R20); `cfg` its parameters, which no command
writes (R10); `commands` and `responses` the two ports (R9), the model's own fields (log entries 3
and 4). -/
structure State where
  /-- CODEC and MAX_BUF (R10). -/
  cfg : Config
  /-- The receive buffer, front first (R21). -/
  buf : List Byte
  /-- The error latch (R22). -/
  latch : Bool
  /-- Command words issued by the host and not yet accepted, oldest first (R51). -/
  commands : List Word
  /-- Responses returned, oldest first (R51). The framer never reads them. -/
  responses : List Response
deriving DecidableEq, Repr

/-- The framer raises no trap, exception or interrupt: every error is a result code (R200). So there is
no fault. -/
inductive Fault where
deriving DecidableEq, Repr

/-- Why a command would have no meaning. -/
inductive Refusal where
  /-- Raised by an arm of `exec` for a command that has no meaning yet. Safe. No arm raises it. -/
  | notModelled (mnemonic : String)
deriving DecidableEq, Repr

/-- An instance built with `cfg`, out of power-on (R30, R230), with nothing yet on its ports. -/
def State.powerOn (cfg : Config) : State :=
  { cfg := cfg, buf := [], latch := false, commands := [], responses := [] }

/-- The machine after reset: R30's values in an instance built with CRC4 and an unbounded buffer (DESIGN
CHOICE, log entry 2). -/
def State.reset : State := State.powerOn { codec := .crc4, maxBuf := .unbounded }

end Sys2Proof.Machine
end

