-- ==== Sys2Proof/Machine/Response.lean ====
section
/-! DEFINITION. The numbers of result codes and diagnostics, and a response's contract (R66 to R68). -/

namespace Sys2Proof.Machine

/-- The 4-bit result code (R67). Codes 0x6 to 0xE are never produced. -/
def ResultCode.bits : ResultCode → BitVec 4
  | .ok => 0x0
  | .frameReady => 0x1
  | .incomplete => 0x2
  | .frameError => 0x3
  | .noStart => 0x4
  | .latched => 0x5
  | .illegal => 0xF

/-- The diagnostic code (R68). -/
def Diag.bits : Diag → BitVec 4
  | .checkMismatch => 0x1
  | .stopCorrupted => 0x2
  | .overflow => 0x3

/-- A response without its diagnostics: what is part of the contract (R68). -/
def Response.contract (r : Response) : ResultCode × Word × List Byte := (r.code, r.value, r.bytes)

end Sys2Proof.Machine
end

