-- ==== Sys2Proof/Machine/Wire.lean ====
section
/-! DEFINITION. The wire-format constants (R11, R61), kept in one record as U4 asks. -/

namespace Sys2Proof.Machine

/-- The record of the four constants. -/
structure WireFormat where
  start : Byte
  stop : Byte
  escape : Byte
  generator : BitVec 5
deriving DecidableEq, Repr

/-- The constants of every instance (R11, R61). -/
def wire : WireFormat :=
  { start := 0x7B, stop := 0x7D, escape := 0x5C, generator := 0b10011 }

/-- START, the tag that opens a frame (R61). -/
abbrev START : Byte := wire.start

/-- STOP, the tag that closes a frame (R61). -/
abbrev STOP : Byte := wire.stop

/-- ESCAPE, the tag that makes the next byte a literal (R61). -/
abbrev ESCAPE : Byte := wire.escape

/-- Whether a byte has one of the three tag values (R61). -/
def isTag (b : Byte) : Bool := b = START ∨ b = STOP ∨ b = ESCAPE

end Sys2Proof.Machine
end

