-- ==== Sys2Proof/Machine/Ops.lean ====
section
/-! DEFINITION. The named operations on the state: the buffer primitives (R41 to R43), the ports (R9,
R51) and the answer to an illegal word (R65). The framer has no trap entry and no return from one
(R205, R206): an illegal word's answer is the nearest thing it has. -/

namespace Sys2Proof.Machine

/-- `buf <- s` (R15). -/
def State.setBuf (s : State) (bytes : List Byte) : State := { s with buf := bytes }

/-- `latch <- v` (R15). -/
def State.setLatch (s : State) (v : Bool) : State := { s with latch := v }

/-- Puts a response on the response port, after the earlier ones (R51). -/
def State.pushResponse (s : State) (r : Response) : State := { s with responses := s.responses ++ [r] }

/-- `return <Code>(value)` (R66): the command ends with this response. -/
def answer (s : State) (code : ResultCode) (value : Word) (bytes : List Byte) (diags : List Diag) :
    Host.Outcome State Fault Refusal :=
  .next (s.pushResponse { code, value, bytes, diags })

/-- The answer to an illegal word: ILLEGAL, no state change, no bytes, no diagnostic (R65). -/
def answerIllegal (s : State) : Host.Outcome State Fault Refusal := answer s .illegal 0 [] []

/-- Whether the buffer already holds MAX_BUF bytes (R41). -/
def bufferFull (maxBuf : MaxBuf) (buf : List Byte) : Bool :=
  match maxBuf with
  | .unbounded => false
  | .finite limit => buf.length = limit

/-- The buffer after `BufAppend(b)`: a full buffer is cleared first (R41, R43). -/
def appended (maxBuf : MaxBuf) (buf : List Byte) (b : Byte) : List Byte :=
  if bufferFull maxBuf buf then [b] else buf ++ [b]

/-- The diagnostics of `BufAppend(b)` (R43). -/
def appendDiags (maxBuf : MaxBuf) (buf : List Byte) : List Diag :=
  if bufferFull maxBuf buf then [.overflow] else []

/-- `BufAppend(b)` on the state (R41). The latch is not written (R43). -/
def bufAppend (s : State) (b : Byte) : State := s.setBuf (appended s.cfg.maxBuf s.buf b)

/-- `BufDropFront(n)`: the buffer without its first `n` bytes (R42). -/
def bufDropFront (n : Nat) (buf : List Byte) : List Byte := buf.drop n

/-- The command the framer accepts next, and the state once it is accepted; none while no command is
waiting (R9, R51). -/
def acceptCommand (s : State) : Option (Word × State) :=
  match s.commands with
  | [] => none
  | w :: rest => some (w, { s with commands := rest })

/-- The state in which `w` is the next command the host issues (R51). -/
def issueCommand (s : State) (w : Word) : State := { s with commands := w :: s.commands }

end Sys2Proof.Machine
end

