-- ==== Sys2Proof/Machine/Flags.lean ====
section
/-! DEFINITION. The error latch's rules (R22) and the status word (R26). -/

namespace Sys2Proof.Machine

/-- The latch after the start of a FEED: PAR2 clears it, CRC4 and PAR1 keep it (R22, R144). -/
def latchAtFeed (codec : Codec) (latch : Bool) : Bool :=
  match codec with
  | .par2 => false
  | .crc4 | .par1 => latch

/-- The latch after a FEED found no START: set for CRC4 and PAR1, unchanged for PAR2 (R22, R145). -/
def latchOnNoStart (codec : Codec) (latch : Bool) : Bool :=
  match codec with
  | .par2 => latch
  | .crc4 | .par1 => true

/-- The latch after a FEED found a check mismatch: set, for every codec (R22, R151). -/
def latchOnMismatch (_codec : Codec) (_latch : Bool) : Bool := true

/-- `codecId` of the status word (R26, R182). -/
def codecId : Codec → Nat
  | .crc4 => 0
  | .par1 => 1
  | .par2 => 2

/-- BUFLEN: the buffer's length, saturated at 0xFFFFFF (R26). -/
def bufLen (buf : List Byte) : Nat := min buf.length 0xFFFFFF

/-- The status word: BUFLEN in bits 31:8, CODEC in bits 2:1, LATCH in bit 0, the rest 0 (R26, R182). -/
def statusWord (s : State) : Word :=
  BitVec.ofNat 32 ((bufLen s.buf <<< 8) ||| (codecId s.cfg.codec <<< 1) ||| s.latch.toNat)

end Sys2Proof.Machine
end

