-- ==== Sys2Proof/Machine/Codec.lean ====
section
/-! DEFINITION. The error-detection codecs (R100 to R107), their escape sets (R121), and the commands
CHK (R110) and VFY (R111). -/

namespace Sys2Proof.Machine

/-- One turn of R101's loop: the remainder shifted left with bit `i` of the dividend below it, less g
when its top bit is then set. -/
def crcStep (v : BitVec 12) (r : BitVec 5) (i : Nat) : BitVec 5 :=
  let shifted := (r <<< 1) ||| (BitVec.ofBool (v.getLsbD i)).setWidth 5
  if shifted.getLsbD 4 then shifted ^^^ wire.generator else shifted

/-- `crcdiv12` (R101): the dividend's bits enter most significant first. -/
def crcdiv12 (v : BitVec 12) : BitVec 4 :=
  ([11, 10, 9, 8, 7, 6, 5, 4, 3, 2, 1, 0].foldl (crcStep v) 0).setWidth 4

/-- The data byte shifted left by 4 to a 12-bit dividend (R102, R103). -/
def dividend (b : Byte) : BitVec 12 := b.setWidth 12 <<< 4

/-- CRC-4 `checkValue` (R102). -/
def checkValueCrc4 (b : Byte) : Byte := (crcdiv12 (dividend b)).setWidth 8

/-- CRC-4 `verify` (R103): the whole received byte enters the XOR. -/
def verifyCrc4 (b c : Byte) : Bool := crcdiv12 (dividend b ^^^ c.setWidth 12) = 0

/-- Parity `checkValue` (R106): the XOR of the eight bits, as 0 or 1. -/
def checkValuePar (b : Byte) : Byte :=
  (BitVec.ofBool
    (b.getLsbD 7 ^^ b.getLsbD 6 ^^ b.getLsbD 5 ^^ b.getLsbD 4 ^^
      b.getLsbD 3 ^^ b.getLsbD 2 ^^ b.getLsbD 1 ^^ b.getLsbD 0)).setWidth 8

/-- Parity `verify` (R107): the received byte is compared whole. -/
def verifyPar (b c : Byte) : Bool := checkValuePar b = c

/-- `checkValue` of the instance (R104). -/
def checkValue : Codec → Byte → Byte
  | .crc4, b => checkValueCrc4 b
  | .par1, b => checkValuePar b
  | .par2, b => checkValuePar b

/-- `verify` of the instance (R105). -/
def verify : Codec → Byte → Byte → Bool
  | .crc4, b, c => verifyCrc4 b c
  | .par1, b, c => verifyPar b c
  | .par2, b, c => verifyPar b c

/-- The byte values the encoder escapes (R121). -/
def escapeSet : Codec → List Byte
  | .crc4 => [START, STOP, ESCAPE]
  | .par1 => [START, STOP, ESCAPE, 0x00, 0x01]
  | .par2 => [START, STOP, ESCAPE, 0x00, 0x01]

/-- CHK (R110): the check value of A. -/
def execChk (a : Byte) (s : State) : Host.Outcome State Fault Refusal :=
  answer s .ok (zext32 (checkValue s.cfg.codec a)) [] []

/-- VFY (R111): 1 if the check byte B is valid for A, else 0. It never sets the latch. -/
def execVfy (a b : Byte) (s : State) : Host.Outcome State Fault Refusal :=
  answer s .ok (if verify s.cfg.codec a b then 1 else 0) [] []

end Sys2Proof.Machine
end

