-- ==== Sys2Proof/Machine/Encoder.lean ====
section
/-! DEFINITION. The frame encoder (R120) and the commands TXSOF, TXD and TXEOF (R122 to R124). They
read no state but the codec and write none (R28). -/

namespace Sys2Proof.Machine

/-- The escape encoder: the bytes of one payload byte, ESCAPE first where its value is in the escape
set, then the byte, then its check value (R44, R120, R123). -/
def encodeByte (codec : Codec) (b : Byte) : List Byte :=
  if b ∈ escapeSet codec then [ESCAPE, b, checkValue codec b] else [b, checkValue codec b]

/-- `encode(payload)` (R120). -/
def encodePayload (codec : Codec) (payload : List Byte) : List Byte :=
  [START] ++ payload.flatMap (encodeByte codec) ++ [STOP]

/-- TXSOF (R122). -/
def execTxsof (s : State) : Host.Outcome State Fault Refusal := answer s .ok 0 [START] []

/-- TXD (R123). -/
def execTxd (a : Byte) (s : State) : Host.Outcome State Fault Refusal :=
  answer s .ok 0 (encodeByte s.cfg.codec a) []

/-- TXEOF (R124). -/
def execTxeof (s : State) : Host.Outcome State Fault Refusal := answer s .ok 0 [STOP] []

end Sys2Proof.Machine
end

