-- ==== Sys2Proof/Machine/Reassembler.lean ====
section
/-! DEFINITION. The frame reassembler: FEED's algorithm (R143 to R154) and the commands APPEND, RXB and
FEED (R140 to R142).

R143 reads the buffer by an index `k`. Here the bytes from `k` on are the list still to be scanned, so
that `BufDropFront(k + 1)` is the rest of that list and "missing" is the end of it (DEDUCED, log
entry 11; `Obligations.FeedFollowsTheIndexedAlgorithm` says that the two agree). -/

namespace Sys2Proof.Machine

/-- What one FEED leaves and answers. -/
structure FeedResult where
  code : ResultCode
  bytes : List Byte
  buf : List Byte
  latch : Bool
  diags : List Diag
deriving DecidableEq, Repr

/-- Step 2's search (R145): the buffer from its first START on, empty when it holds none. -/
def seekStart : List Byte → List Byte
  | [] => []
  | b :: rest => if b = START then b :: rest else seekStart rest

/-- INCOMPLETE (R154): `frame`, the buffer from the current START on, stays. -/
def feedIncomplete (latch : Bool) (frame : List Byte) (diags : List Diag) : FeedResult :=
  { code := .incomplete, bytes := [], buf := frame, latch, diags }

/-- FRAME_READY (R148): `rest` are the bytes after the frame's STOP. -/
def feedReady (latch : Bool) (data rest : List Byte) (diags : List Diag) : FeedResult :=
  { code := .frameReady, bytes := data, buf := rest, latch, diags }

/-- `FrameError(j)` (R151): `rest` are the bytes after the check byte that failed; CRC4 and PAR1 clear
them too. -/
def feedMismatch (codec : Codec) (latch : Bool) (rest : List Byte) (diags : List Diag) : FeedResult :=
  { code := .frameError, bytes := [], buf := if codec = .par2 then rest else [],
    latch := latchOnMismatch codec latch, diags := diags ++ [.checkMismatch] }

/-- Step 3 (R146 to R154) on the bytes from the data position `k` on. `frame` is the buffer from the
current START on, `data` the payload extracted so far, `diags` the diagnostics emitted so far. -/
def collect (codec : Codec) (latch : Bool) (frame data : List Byte) (diags : List Diag) :
    List Byte → FeedResult
  | [] => feedIncomplete latch frame diags
  | t :: rest =>
    if t = ESCAPE then
      match rest with
      | l :: c :: rest' =>
        if verify codec l c then collect codec latch frame (data ++ [l]) diags rest'
        else feedMismatch codec latch rest' diags
      | _ => feedIncomplete latch frame diags
    else if t = STOP then feedReady latch data rest diags
    else if t = START then collect codec latch (t :: rest) [] diags rest
    else
      match rest with
      | c :: rest' =>
        if codec = .par2 ∧ c = START then
          collect codec latch (c :: rest') [] (diags ++ [.stopCorrupted]) rest'
        else if verify codec t c then collect codec latch frame (data ++ [t]) diags rest'
        else feedMismatch codec latch rest' diags
      | [] => feedIncomplete latch frame diags

/-- FEED-body (R143) on the instance's codec, buffer and latch. -/
def feedResult (codec : Codec) (buf : List Byte) (latch : Bool) : FeedResult :=
  let latch := latchAtFeed codec latch
  if latch then { code := .latched, bytes := [], buf := [], latch, diags := [] }
  else
    match seekStart buf with
    | [] => { code := .noStart, bytes := [], buf := [], latch := latchOnNoStart codec latch, diags := [] }
    | start :: rest => collect codec latch (start :: rest) [] [] rest

/-- FEED-body on the state; `before` are the diagnostics the command emitted earlier (R141). -/
def feedBody (before : List Diag) (s : State) : Host.Outcome State Fault Refusal :=
  let r := feedResult s.cfg.codec s.buf s.latch
  answer ((s.setBuf r.buf).setLatch r.latch) r.code 0 r.bytes (before ++ r.diags)

/-- APPEND (R140). The latch is neither read nor written. -/
def execAppend (a : Byte) (s : State) : Host.Outcome State Fault Refusal :=
  answer (bufAppend s a) .ok 0 [] (appendDiags s.cfg.maxBuf s.buf)

/-- RXB (R141): the append, then FEED. -/
def execRxb (a : Byte) (s : State) : Host.Outcome State Fault Refusal :=
  feedBody (appendDiags s.cfg.maxBuf s.buf) (bufAppend s a)

/-- FEED (R142). -/
def execFeed (s : State) : Host.Outcome State Fault Refusal := feedBody [] s

end Sys2Proof.Machine
end

