-- ==== Sys2Proof/Machine/Control.lean ====
section
/-! DEFINITION. The control commands NOP, RESET and STAT (R180 to R182) and the reserved opcodes (R65). -/

namespace Sys2Proof.Machine

/-- NOP (R180). -/
def execNop (s : State) : Host.Outcome State Fault Refusal := answer s .ok 0 [] []

/-- RESET (R181): the buffer emptied and the latch cleared; the parameters stay. -/
def execReset (s : State) : Host.Outcome State Fault Refusal :=
  answer ((s.setBuf []).setLatch false) .ok 0 [] []

/-- STAT (R182): the status word. Reading it clears nothing. -/
def execStat (s : State) : Host.Outcome State Fault Refusal := answer s .ok (statusWord s) [] []

/-- The reserved opcode 0xB (R65). -/
def execReservedB (_low : BitVec 28) (s : State) : Host.Outcome State Fault Refusal := answerIllegal s

/-- The reserved opcode 0xC (R65). -/
def execReservedC (_low : BitVec 28) (s : State) : Host.Outcome State Fault Refusal := answerIllegal s

/-- The reserved opcode 0xD (R65). -/
def execReservedD (_low : BitVec 28) (s : State) : Host.Outcome State Fault Refusal := answerIllegal s

/-- The reserved opcode 0xE (R65). -/
def execReservedE (_low : BitVec 28) (s : State) : Host.Outcome State Fault Refusal := answerIllegal s

/-- The reserved opcode 0xF (R65). -/
def execReservedF (_low : BitVec 28) (s : State) : Host.Outcome State Fault Refusal := answerIllegal s

end Sys2Proof.Machine
end

