-- ==== Sys2Proof/Machine/Dispatch.lean ====
section
/-! DEFINITION. One arm per command. -/

namespace Sys2Proof.Machine

def exec (i : Instr) (s : State) : Host.Outcome State Fault Refusal :=
  match i with
  | .nop => Sys2Proof.Machine.execNop s
  | .reset => Sys2Proof.Machine.execReset s
  | .rxb a => Sys2Proof.Machine.execRxb a s
  | .append a => Sys2Proof.Machine.execAppend a s
  | .feed => Sys2Proof.Machine.execFeed s
  | .txsof => Sys2Proof.Machine.execTxsof s
  | .txd a => Sys2Proof.Machine.execTxd a s
  | .txeof => Sys2Proof.Machine.execTxeof s
  | .chk a => Sys2Proof.Machine.execChk a s
  | .vfy a b => Sys2Proof.Machine.execVfy a b s
  | .stat => Sys2Proof.Machine.execStat s
  | .reservedB low => Sys2Proof.Machine.execReservedB low s
  | .reservedC low => Sys2Proof.Machine.execReservedC low s
  | .reservedD low => Sys2Proof.Machine.execReservedD low s
  | .reservedE low => Sys2Proof.Machine.execReservedE low s
  | .reservedF low => Sys2Proof.Machine.execReservedF low s

end Sys2Proof.Machine
end

