-- ==== Sys2Proof/Machine/Step.lean ====
section
/-! DEFINITION. One step: the framer accepts the next command word, decodes it and runs it to
completion (R9, R48, R51). -/

namespace Sys2Proof.Machine

/-- One command. A word the decoder refuses is answered ILLEGAL and the instance goes on (R65). While no
command is waiting nothing happens (DESIGN CHOICE, log entry 5). -/
def step (s : State) : Host.Outcome State Fault Refusal :=
  match acceptCommand s with
  | none => .next s
  | some (w, s') =>
    match decode w with
    | .ok i => exec i s'
    | .error _ => answerIllegal s'

/-- `s` with the given command word as the next one on its command port (log entry 3). -/
def State.withFetchWord (s : State) (nbits w : Nat) : State := issueCommand s (wordOfBits nbits w)

end Sys2Proof.Machine
end

