-- ==== Sys2Proof/Machine/Assembler.lean ====
section
/-! DEFINITION. The pseudo-instructions (R70) and the assembler's text form (R69). A line is a list of
characters. The framer itself reads neither: they say how a host writes its commands down. -/

namespace Sys2Proof.Machine

/-- `ENCODE p0, ..., pn-1` (R70). -/
def pseudoEncode (payload : List Byte) : List Instr := [.txsof] ++ payload.map .txd ++ [.txeof]

/-- `RXSEQ s0, ..., sm-1` (R70): per-byte drive. -/
def pseudoRxseq (bytes : List Byte) : List Instr := bytes.map .rxb

/-- `BULK s0, ..., sm-1` (R70): the whole sequence in the buffer before one FEED. -/
def pseudoBulk (bytes : List Byte) : List Instr := bytes.map .append ++ [.feed]

/-- `CLR` (R70). -/
def pseudoClr : List Instr := [.reset]

/-- A blank of the text form (DESIGN CHOICE, log entry 16). -/
def isBlank (c : Char) : Bool := c = ' ' ∨ c = '\t'

/-- The digits a hex byte is written with (R13). -/
def hexDigits : List Char := ['0', '1', '2', '3', '4', '5', '6', '7', '8', '9', 'A', 'B', 'C', 'D', 'E', 'F']

/-- The lower-case digits, read like the others (DESIGN CHOICE, log entry 16). -/
def lowerHexDigits : List Char := ['0', '1', '2', '3', '4', '5', '6', '7', '8', '9', 'a', 'b', 'c', 'd', 'e', 'f']

/-- The value of a hex digit. -/
def hexValue (c : Char) : Option (BitVec 4) :=
  if c ∈ hexDigits then some (BitVec.ofNat 4 (hexDigits.idxOf c))
  else if c ∈ lowerHexDigits then some (BitVec.ofNat 4 (lowerHexDigits.idxOf c))
  else none

/-- A hex byte, `0x` and one or two digits. -/
def parseByte : List Char → Option Byte
  | ['0', 'x', h, l] => do return (← hexValue h) ++ (← hexValue l)
  | ['0', 'x', l] => do return (0 : BitVec 4) ++ (← hexValue l)
  | _ => none

/-- A byte written as R69 writes it. -/
def renderByte (b : Byte) : List Char :=
  ['0', 'x', hexDigits.getD (b.extractLsb' 4 4).toNat '0', hexDigits.getD (b.extractLsb' 0 4).toNat '0']

/-- The pieces of a text between its commas. -/
def splitCommas : List Char → List (List Char)
  | [] => [[]]
  | c :: rest =>
    if c = ',' then [] :: splitCommas rest
    else
      match splitCommas rest with
      | [] => [[c]]
      | piece :: pieces => (c :: piece) :: pieces

/-- A text without the blanks around it. -/
def trimBlanks (text : List Char) : List Char := ((text.dropWhile isBlank).reverse.dropWhile isBlank).reverse

/-- The operands of a line: hex bytes separated by commas (R69). -/
def parseOperands (text : List Char) : Option (List Byte) :=
  if text.all isBlank then some []
  else (splitCommas text).mapM fun piece => parseByte (trimBlanks piece)

/-- The commands that a mnemonic and its operands stand for (R63, R69, R70). -/
def commandsOf (mnemonic : List Char) (operands : List Byte) : Option (List Instr) :=
  if mnemonic = ['E', 'N', 'C', 'O', 'D', 'E'] then some (pseudoEncode operands)
  else if mnemonic = ['R', 'X', 'S', 'E', 'Q'] then some (pseudoRxseq operands)
  else if mnemonic = ['B', 'U', 'L', 'K'] then some (pseudoBulk operands)
  else
    match operands with
    | [] =>
      if mnemonic = ['N', 'O', 'P'] then some [.nop]
      else if mnemonic = ['R', 'E', 'S', 'E', 'T'] then some [.reset]
      else if mnemonic = ['F', 'E', 'E', 'D'] then some [.feed]
      else if mnemonic = ['T', 'X', 'S', 'O', 'F'] then some [.txsof]
      else if mnemonic = ['T', 'X', 'E', 'O', 'F'] then some [.txeof]
      else if mnemonic = ['S', 'T', 'A', 'T'] then some [.stat]
      else if mnemonic = ['C', 'L', 'R'] then some pseudoClr
      else none
    | [a] =>
      if mnemonic = ['R', 'X', 'B'] then some [.rxb a]
      else if mnemonic = ['A', 'P', 'P', 'E', 'N', 'D'] then some [.append a]
      else if mnemonic = ['T', 'X', 'D'] then some [.txd a]
      else if mnemonic = ['C', 'H', 'K'] then some [.chk a]
      else none
    | [a, b] => if mnemonic = ['V', 'F', 'Y'] then some [.vfy a b] else none
    | _ => none

/-- The commands of one line (R69); a line with nothing before its comment stands for none. -/
def assembleLine (line : List Char) : Option (List Instr) :=
  let text := (line.takeWhile (· ≠ ';')).dropWhile isBlank
  let mnemonic := text.takeWhile fun c => !isBlank c
  let rest := text.dropWhile fun c => !isBlank c
  if mnemonic = [] then some []
  else do commandsOf mnemonic (← parseOperands rest)

/-- The command words of a text, line by line (R69). -/
def assemble (lines : List (List Char)) : Option (List Word) := do
  return ((← lines.mapM assembleLine).flatten).map encode

/-- A command as one line (R69). A reserved opcode has no text form. -/
def renderInstr : Instr → Option (List Char)
  | .nop => some ['N', 'O', 'P']
  | .reset => some ['R', 'E', 'S', 'E', 'T']
  | .rxb a => some (['R', 'X', 'B', ' '] ++ renderByte a)
  | .append a => some (['A', 'P', 'P', 'E', 'N', 'D', ' '] ++ renderByte a)
  | .feed => some ['F', 'E', 'E', 'D']
  | .txsof => some ['T', 'X', 'S', 'O', 'F']
  | .txd a => some (['T', 'X', 'D', ' '] ++ renderByte a)
  | .txeof => some ['T', 'X', 'E', 'O', 'F']
  | .chk a => some (['C', 'H', 'K', ' '] ++ renderByte a)
  | .vfy a b => some (['V', 'F', 'Y', ' '] ++ renderByte a ++ [',', ' '] ++ renderByte b)
  | .stat => some ['S', 'T', 'A', 'T']
  | .reservedB _ => none
  | .reservedC _ => none
  | .reservedD _ => none
  | .reservedE _ => none
  | .reservedF _ => none

end Sys2Proof.Machine
end

