-- ==== Sys2Proof/Safety.lean ====
section
/-! DEFINITION. The terms the claims about the framer use: what a command answers, the invariant of a
run, CRC-4's table (R112), the grammar of frames (R60), the pairs the reassembler accepts (R74), and
R143's algorithm written with its index. -/

namespace Sys2Proof.Machine

/-- The outcome is a next state: `t` with one more response, of this code, value and bytes. The
response's diagnostics are left open, since no claim may depend on them (R68). -/
def Answers (o : Host.Outcome State Fault Refusal) (t : State) (code : ResultCode) (value : Word)
    (bytes : List Byte) : Prop :=
  ∃ diags, o = .next { t with responses := t.responses ++ [{ code, value, bytes, diags }] }

/-- The invariant of every run: the parameters are legal (R10) and the buffer keeps within MAX_BUF
(R21). -/
def Inv (s : State) : Prop := s.cfg.wf = true ∧ s.cfg.maxBuf.Admits s.buf.length

/-- FEED will not answer LATCHED: the latch is clear, or the codec clears it first (R144). -/
def Unlatched (s : State) : Prop := s.latch = false ∨ s.cfg.codec = .par2

/-- The responses without their diagnostics, oldest first (R66, R68). -/
def contracts (s : State) : List (ResultCode × Word × List Byte) := s.responses.map Response.contract

/-! ### Codec arithmetic -/

/-- The number of one bits of a byte. -/
def popcount (b : Byte) : Nat := (List.range 8).countP fun i => b.getLsbD i

/-- The product of a polynomial over GF(2) of degree at most 7 with g (R101). -/
def timesG (q : Byte) : BitVec 12 :=
  (List.range 8).foldl (fun acc i => if q.getLsbD i then acc ^^^ (0b10011#12 <<< i) else acc) 0

/-- R112's table: row `i` holds the sixteen check values of the bytes 0xi0 to 0xiF, the first in the
highest digit. -/
def crcTable : List (BitVec 64) :=
  [0x0365CFA9B8DE7412, 0x56309AFCED8B2147, 0xA9CF65031274DEB8, 0xFC9A305647218BED,
   0x7412B8DECFA90365, 0x2147ED8B9AFC5630, 0xDEB812746503A9CF, 0x8BED47213056FC9A,
   0xED8B214756309AFC, 0xB8DE74120365CFA9, 0x47218BEDFC9A3056, 0x1274DEB8A9CF6503,
   0x9AFC56302147ED8B, 0xCFA903657412B8DE, 0x3056FC9A8BED4721, 0x6503A9CFDEB81274]

/-- The cell of R112's table for a byte. -/
def crcCell (b : Byte) : BitVec 4 :=
  (crcTable.getD (b.extractLsb' 4 4).toNat 0).extractLsb' (4 * (15 - (b.extractLsb' 0 4).toNat)) 4

/-- The number of bytes with a property. -/
def countBytes (p : Byte → Bool) : Nat := (List.range 256).countP fun n => p (BitVec.ofNat 8 n)

/-! ### Frames -/

/-- `pair*` of R60's grammar, as the encoder emits it. -/
inductive IsPairs (codec : Codec) : List Byte → Prop where
  | none : IsPairs codec []
  | plain (d : Byte) (rest : List Byte) (fresh : d ∉ escapeSet codec) (more : IsPairs codec rest) :
      IsPairs codec (d :: checkValue codec d :: rest)
  | escaped (d : Byte) (rest : List Byte) (tagged : d ∈ escapeSet codec) (more : IsPairs codec rest) :
      IsPairs codec (ESCAPE :: d :: checkValue codec d :: rest)

/-- `frame` of R60's grammar. -/
def IsFrame (codec : Codec) (bytes : List Byte) : Prop :=
  ∃ pairs, IsPairs codec pairs ∧ bytes = START :: (pairs ++ [STOP])

/-- A run of complete pairs the reassembler verifies, with the payload they carry (R149, R152). It is
wider than R60's grammar: any byte but a tag may stand plain, and any byte may be escaped (R74). -/
inductive Verified (codec : Codec) : List Byte → List Byte → Prop where
  | none : Verified codec [] []
  | plain (t c : Byte) (pairs data : List Byte) (literal : isTag t = false) (valid : verify codec t c = true)
      (more : Verified codec pairs data) : Verified codec (t :: c :: pairs) (t :: data)
  | escaped (l c : Byte) (pairs data : List Byte) (valid : verify codec l c = true)
      (more : Verified codec pairs data) : Verified codec (ESCAPE :: l :: c :: pairs) (l :: data)

/-- A complete pair that fails its check (R149, R152); under PAR2 a plain literal before a START is none
(R153). -/
inductive FailingPair (codec : Codec) : List Byte → Prop where
  | plain (t c : Byte) (literal : isTag t = false) (invalid : verify codec t c = false)
      (kept : ¬(codec = .par2 ∧ c = START)) : FailingPair codec [t, c]
  | escaped (l c : Byte) (invalid : verify codec l c = false) : FailingPair codec [ESCAPE, l, c]

/-- The end of a buffer in which a pair is not complete, or nothing stands (R149, R152, R154). -/
inductive CutPair : List Byte → Prop where
  | none : CutPair []
  | plain (t : Byte) (literal : isTag t = false) : CutPair [t]
  | escape : CutPair [ESCAPE]
  | escaped (l : Byte) : CutPair [ESCAPE, l]

/-- Nothing in the buffer is left for a FEED to decide: it is empty, or a FEED would answer INCOMPLETE
and leave it as it is (R157). -/
def Settled (s : State) : Prop :=
  s.buf = [] ∨ Answers (exec .feed { s with latch := false }) { s with latch := false } .incomplete 0 []

/-! ### R143 with its index -/

/-- What R143's FEED-body answers and leaves, without its diagnostics (R68). -/
structure IndexedResult where
  code : ResultCode
  bytes : List Byte
  buf : List Byte
  latch : Bool
deriving DecidableEq, Repr

/-- R143's `FrameError(j)` and the `return FRAME_ERROR` after it. -/
def indexedFrameError (codec : Codec) (buf : List Byte) (j : Nat) : IndexedResult :=
  { code := .frameError, bytes := [], buf := if codec ≠ .par2 then [] else bufDropFront (j + 1) buf,
    latch := true }

/-- R143's step 3: the loop, one turn for each `turns`. It gives none where the turns run out. -/
def indexedCollect (codec : Codec) (latch : Bool) :
    (turns : Nat) → (buf data : List Byte) → (k : Nat) → Option IndexedResult
  | 0, _, _, _ => none
  | turns + 1, buf, data, k =>
    if k ≥ buf.length then some { code := .incomplete, bytes := [], buf, latch }
    else
      let t := buf.getD k 0
      if t = ESCAPE then
        if k + 2 > buf.length - 1 then some { code := .incomplete, bytes := [], buf, latch }
        else
          let l := buf.getD (k + 1) 0
          let c := buf.getD (k + 2) 0
          if ¬verify codec l c then some (indexedFrameError codec buf (k + 2))
          else indexedCollect codec latch turns buf (data ++ [l]) (k + 3)
      else if t = STOP then some { code := .frameReady, bytes := data, buf := bufDropFront (k + 1) buf, latch }
      else if t = START then indexedCollect codec latch turns (bufDropFront k buf) [] 1
      else if k + 1 > buf.length - 1 then some { code := .incomplete, bytes := [], buf, latch }
      else
        let c := buf.getD (k + 1) 0
        if codec = .par2 ∧ c = START then indexedCollect codec latch turns (bufDropFront (k + 1) buf) [] 1
        else if ¬verify codec t c then some (indexedFrameError codec buf (k + 1))
        else indexedCollect codec latch turns buf (data ++ [t]) (k + 2)

/-- R143's FEED-body, with at most `turns` turns of its loop. -/
def indexedFeed (codec : Codec) (turns : Nat) (buf : List Byte) (latch : Bool) : Option IndexedResult :=
  let latch := if codec = .par2 then false else latch
  if latch then some { code := .latched, bytes := [], buf := [], latch }
  else if START ∉ buf then
    some { code := .noStart, bytes := [], buf := [], latch := if codec ≠ .par2 then true else latch }
  else indexedCollect codec latch turns (bufDropFront (buf.idxOf START) buf) [] 1

end Sys2Proof.Machine
end

