-- ==== Sys2Proof/Certificates/Slice0/Obligations.lean ====
section
/-! DEFINITION. The statements about the framer. `Answers` leaves a response's diagnostics open
everywhere, because R68 lets no claim depend on them; so where two commands are said to do the same, the
statement gives one answer that both have, and does not equate their outcomes. -/

open Sys2Proof Sys2Proof.Machine

/-! ### Command words -/

/-- Sample words of 95_test_vectors.md (L2.1, S6 and P1): one of each command decodes to it, and three
with an illegal field are refused. That the last two words, for which R72 gives ILLEGAL, decode to the row
of their reserved opcode is the model's choice (log entry 6); `Obligations.ReservedOpcodesAnswerIllegal`
says that such a row answers ILLEGAL. -/
def Obligations.SampleWordsDecode : Prop :=
  decode 0x00000000 = .ok .nop ∧ decode 0x10000000 = .ok .reset ∧ decode 0x20007B00 = .ok (.rxb 0x7B) ∧
  decode 0x30001100 = .ok (.append 0x11) ∧ decode 0x40000000 = .ok .feed ∧ decode 0x50000000 = .ok .txsof ∧
  decode 0x60005C00 = .ok (.txd 0x5C) ∧ decode 0x70000000 = .ok .txeof ∧ decode 0x80000000 = .ok (.chk 0x00) ∧
  decode 0x90004104 = .ok (.vfy 0x41 0x04) ∧ decode 0xA0000000 = .ok .stat ∧
  decode 0xB0000000 = .ok (.reservedB 0) ∧ decode 0xFFFFFFFF = .ok (.reservedF 0xFFFFFFF) ∧
  decode 0x00000001 = .error .unusedB ∧ decode 0x20010000 = .error .reservedBits ∧
  decode 0xA0000100 = .error .unusedA

/-- R62, R63: the decoder reads back what the encoder writes, for every command and every operand. That
the reserved opcodes are commands too, with the 28 bits below them, is the model's choice (log entry 6). -/
def Obligations.DecodeOfEncode : Prop := ∀ i : Instr, decode (encode i) = .ok i

/-- R64, R72: a word that decodes to a command is the one word the encoder writes for it. That a word of
a reserved opcode decodes at all is the model's choice (log entry 6). -/
def Obligations.EncodeOfDecode : Prop := ∀ (w : Word) (i : Instr), decode w = .ok i → encode i = w

/-- R64, R65: the words that pass the field check, the words of the opcode table's command rows by mask
and pattern, and the words that decode to a command of an assigned opcode are the same; the words of the
reserved rows are those that decode to a reserved opcode, which is the model's choice (log entry 6). -/
def Obligations.LegalWordsAreTheTableRows : Prop :=
  ∀ w : Word,
    (wordWellFormed w = true ↔ ∃ row ∈ commandRows, row.matches w = true) ∧
    (wordWellFormed w = true ↔ ∃ i, decode w = .ok i ∧ i.wf = true) ∧
    ((∃ row ∈ reservedRows, row.matches w = true) ↔ ∃ i, decode w = .ok i ∧ i.wf = false)

/-- R65: a word with a reserved opcode, a non-zero RSV or a non-zero unused operand answers ILLEGAL with
value 0 and no bytes, and changes neither buffer nor latch. -/
def Obligations.IllegalWordAnswersIllegal : Prop :=
  ∀ (s : State) (w : Word) (rest : List Word), s.commands = w :: rest →
    (0xB ≤ (fieldOp w).toNat ∨ fieldRsv w ≠ 0 ∨ (usesA (fieldOp w) = false ∧ fieldA w ≠ 0) ∨
      (usesB (fieldOp w) = false ∧ fieldB w ≠ 0)) →
    Answers (step s) { s with commands := rest } .illegal 0 []

/-- R65, R73: the five reserved opcodes answer ILLEGAL and change no state, whatever stands below them. -/
def Obligations.ReservedOpcodesAnswerIllegal : Prop :=
  ∀ (s : State) (low : BitVec 28),
    Answers (exec (.reservedB low) s) s .illegal 0 [] ∧ Answers (exec (.reservedC low) s) s .illegal 0 [] ∧
    Answers (exec (.reservedD low) s) s .illegal 0 [] ∧ Answers (exec (.reservedE low) s) s .illegal 0 [] ∧
    Answers (exec (.reservedF low) s) s .illegal 0 []

/-! ### The step -/

/-- R51: when the next word decodes to a command, the step accepts the word and runs that command. -/
def Obligations.StepRunsTheDecodedCommand : Prop :=
  ∀ (s : State) (w : Word) (rest : List Word) (i : Instr), s.commands = w :: rest → decode w = .ok i →
    step s = exec i { s with commands := rest }

/-- The model's choice, log entry 5: with no command waiting a step changes nothing. -/
def Obligations.StepWithNoCommandChangesNothing : Prop := ∀ s : State, s.commands = [] → step s = .next s

/-- R9, R51: every step with a command waiting goes on: it accepts the oldest word and returns one response
after the earlier ones. It never changes the instance's parameters (R20). That a step with no command
waiting goes on and changes nothing is the model's choice (log entry 5), as are the lists that hold the
two ports (log entries 3 and 4). -/
def Obligations.EveryStepAnswersOneCommand : Prop :=
  ∀ s : State, ∃ t, step s = .next t ∧ t.cfg = s.cfg ∧
    ((s.commands = [] ∧ t = s) ∨
      ∃ w r, s.commands = w :: t.commands ∧ t.responses = s.responses ++ [r])

/-- R66, R67, R202: the code, value and bytes each command can answer, from every state; and the numbers
of the codes. -/
def Obligations.CommandsAnswerTheirResultCodes : Prop :=
  (∀ (i : Instr) (s : State), ∃ t code value bytes, Answers (exec i s) t code value bytes ∧
    (match i with
      | .feed | .rxb _ => code ∈ [.frameReady, .incomplete, .frameError, .noStart, .latched] ∧ value = 0 ∧
          (code = .frameReady ∨ bytes = [])
      | .reservedB _ | .reservedC _ | .reservedD _ | .reservedE _ | .reservedF _ =>
          code = .illegal ∧ value = 0 ∧ bytes = []
      | .chk _ | .vfy _ _ | .stat => code = .ok ∧ bytes = []
      | .txsof | .txeof => code = .ok ∧ value = 0 ∧ bytes.length = 1
      | .txd _ => code = .ok ∧ value = 0 ∧ (bytes.length = 2 ∨ bytes.length = 3)
      | .nop | .reset | .append _ => code = .ok ∧ value = 0 ∧ bytes = [])) ∧
  ResultCode.bits .ok = 0x0 ∧ ResultCode.bits .frameReady = 0x1 ∧ ResultCode.bits .incomplete = 0x2 ∧
  ResultCode.bits .frameError = 0x3 ∧ ResultCode.bits .noStart = 0x4 ∧ ResultCode.bits .latched = 0x5 ∧
  ResultCode.bits .illegal = 0xF

/-! ### Reset, the invariant and the latch -/

/-- R30: power-on and the RESET command leave an empty buffer and a clear latch and keep the parameters
the instance was built with. -/
def Obligations.ResetStateIsEmptyAndUnlatched : Prop :=
  (∀ cfg : Config, (State.powerOn cfg).buf = [] ∧ (State.powerOn cfg).latch = false ∧
    (State.powerOn cfg).cfg = cfg) ∧
  State.reset.buf = [] ∧ State.reset.latch = false ∧
  ∀ s : State, Answers (exec .reset s) { s with buf := [], latch := false } .ok 0 []

/-- R21: the buffer keeps within a positive MAX_BUF in every step; in a step with no command waiting by the
model's choice (log entry 5). -/
def Obligations.StepKeepsInvariant : Prop := ∀ s t : State, Inv s → step s = .next t → Inv t

/-- The invariant holds out of power-on, for every legal pair of parameters, and at `State.reset`, whose
parameters are the model's choice (log entry 2). -/
def Obligations.ResetMeetsInvariant : Prop :=
  Inv State.reset ∧ ∀ cfg : Config, cfg.wf = true → Inv (State.powerOn cfg)

/-- R22: the latch after each command. FRAME_ERROR sets it, NO_START sets it except under PAR2, a PAR2
FEED clears it first, RESET clears it, and no other command writes it; under CRC4 and PAR1 only RESET
clears it. -/
def Obligations.LatchFollowsItsTable : Prop :=
  ∀ (i : Instr) (s t : State) (code : ResultCode) (value : Word) (bytes : List Byte),
    Answers (exec i s) t code value bytes →
    (t.latch =
      match code with
      | .frameError => true
      | .noStart => decide (s.cfg.codec ≠ .par2)
      | .latched => true
      | .frameReady | .incomplete => false
      | .ok | .illegal => if i = .reset then false else s.latch) ∧
    (s.cfg.codec ≠ .par2 → s.latch = true → i ≠ .reset → t.latch = true)

/-- R237: a latched CRC4 or PAR1 instance delivers no frame in any run without a RESET, and stays
latched. Steps after the last waiting command change nothing by the model's choice (log entry 5). -/
def Obligations.LatchedInstanceDeliversNothing : Prop :=
  ∀ (n : Nat) (s : State), s.cfg.codec ≠ .par2 → s.latch = true → (∀ w ∈ s.commands, w ≠ encode .reset) →
    ∃ (t : State) (new : List Response), Host.Core.run Sys2Proof.core n s = .next t ∧ t.latch = true ∧
      t.responses = s.responses ++ new ∧ ∀ r ∈ new, r.code ≠ .frameReady

/-! ### NOP, RESET, STAT -/

/-- R180. -/
def Obligations.NopDoesNothing : Prop :=
  (∀ s : State, Answers (exec .nop s) s .ok 0 []) ∧ encode .nop = 0x00000000 ∧
  ∀ w : Word, fieldOp w = 0x0 → (fieldRsv w ≠ 0 ∨ fieldA w ≠ 0 ∨ fieldB w ≠ 0) → ∃ e, decode w = .error e

/-- R181: RESET empties the buffer, clears the latch, keeps the parameters; it is the only command that
clears a CRC4 or PAR1 latch; the next STAT shows LATCH = 0 and BUFLEN = 0. -/
def Obligations.ResetEmptiesAndUnlatches : Prop :=
  (∀ s : State, Answers (exec .reset s) { s with buf := [], latch := false } .ok 0 []) ∧
  encode .reset = 0x10000000 ∧
  (∀ (i : Instr) (s t : State), s.cfg.codec ≠ .par2 → s.latch = true → exec i s = .next t →
    t.latch = false → i = .reset) ∧
  ∀ s : State, s.buf = [] → s.latch = false →
    ∃ v : Word, Answers (exec .stat s) s .ok v [] ∧ v.getLsbD 0 = false ∧ v.extractLsb' 8 24 = 0

/-- R26, R182: STAT answers the status word and changes no state: LATCH in bit 0, CODEC in bits 2:1,
zeros in bits 7:3, the saturated buffer length in bits 31:8. -/
def Obligations.StatReturnsTheStatusWord : Prop :=
  (∀ s : State, ∃ v : Word, Answers (exec .stat s) s .ok v [] ∧ v.getLsbD 0 = s.latch ∧
    v.extractLsb' 1 2 = (match s.cfg.codec with | .crc4 => 0 | .par1 => 1 | .par2 => 2) ∧
    v.extractLsb' 3 5 = 0 ∧ (v.extractLsb' 8 24).toNat = min s.buf.length 0xFFFFFF) ∧
  encode .stat = 0xA0000000 ∧
  ∀ s : State, s.cfg.codec = .par1 → s.buf = [0x7B] → s.latch = false →
    Answers (exec .stat s) s .ok 0x00000102 []

/-! ### The codec -/

/-- R101: `crcdiv12 v` is the remainder of the polynomial division of `v` by g over GF(2): the only
4-bit value that differs from `v` by a multiple of g. The spec marks this property as derived. -/
def Obligations.CrcDivisionIsPolynomialRemainder : Prop :=
  ∀ (v : BitVec 12) (r : BitVec 4), crcdiv12 v = r ↔ ∃ q : Byte, v = timesG q ^^^ r.setWidth 12

/-- R112: CHK's CRC-4 values are the table's; each remainder occurs for 16 bytes; the map is linear. The
spec marks the table as derived. -/
def Obligations.CrcCheckValuesAreTheTable : Prop :=
  (∀ b : Byte, checkValue .crc4 b = (crcCell b).setWidth 8) ∧
  (∀ r : BitVec 4, countBytes (fun b => checkValue .crc4 b = r.setWidth 8) = 16) ∧
  (∀ a b : Byte, checkValue .crc4 (a ^^^ b) = checkValue .crc4 a ^^^ checkValue .crc4 b) ∧
  checkValue .crc4 0x00 = 0x0

/-- R103's corner cases, which the spec marks as derived: of the low-nibble check bytes only the check
value verifies; in all exactly 16 check bytes verify, those with the check value's remainder; and the
data bytes for which a tag verifies. -/
def Obligations.CrcVerifyAcceptsSixteenSyndromes : Prop :=
  (∀ b c : Byte, c.toNat < 16 → (verify .crc4 b c = true ↔ c = checkValue .crc4 b)) ∧
  (∀ b c : Byte, verify .crc4 b c = true ↔ (crcdiv12 (c.setWidth 12)).setWidth 8 = checkValue .crc4 b) ∧
  (∀ b : Byte, countBytes (fun c => verify .crc4 b c) = 16) ∧
  (∀ c : Byte, verify .crc4 0x41 c = true ↔
    c ∈ [0x04, 0x17, 0x22, 0x31, 0x48, 0x5B, 0x6E, 0x7D, 0x8F, 0x9C, 0xA9, 0xBA, 0xC3, 0xD0, 0xE5, 0xF6]) ∧
  (∀ b : Byte, verify .crc4 b START = true ↔
    b ∈ [0x0F, 0x1C, 0x29, 0x3A, 0x43, 0x50, 0x65, 0x76, 0x84, 0x97, 0xA2, 0xB1, 0xC8, 0xDB, 0xEE, 0xFD]) ∧
  (∀ b : Byte, verify .crc4 b STOP = true ↔
    b ∈ [0x0D, 0x1E, 0x2B, 0x38, 0x41, 0x52, 0x67, 0x74, 0x86, 0x95, 0xA0, 0xB3, 0xCA, 0xD9, 0xEC, 0xFF]) ∧
  (∀ b : Byte, verify .crc4 b ESCAPE = true ↔
    b ∈ [0x01, 0x12, 0x27, 0x34, 0x4D, 0x5E, 0x6B, 0x78, 0x8A, 0x99, 0xAC, 0xBF, 0xC6, 0xD5, 0xE0, 0xF3])

/-- R108, which the spec marks as derived: every single-bit flip of the byte or of its check byte fails,
every burst of length 4 or less in the dividend fails, and the two-bit flips that pass are those of data
bit `k` with check bit `k + 4`. -/
def Obligations.CrcDetectsErrors : Prop :=
  (∀ (b : Byte) (k : Nat), k < 8 → verify .crc4 (b ^^^ 1#8 <<< k) (checkValue .crc4 b) = false) ∧
  (∀ (b : Byte) (k : Nat), k < 8 → verify .crc4 b (checkValue .crc4 b ^^^ 1#8 <<< k) = false) ∧
  (∀ (v : BitVec 12) (burst : BitVec 4) (j : Nat), burst ≠ 0 → j ≤ 8 → crcdiv12 v = 0 →
    crcdiv12 (v ^^^ burst.setWidth 12 <<< j) ≠ 0) ∧
  (∀ b e f : Byte, popcount e + popcount f = 2 →
    (verify .crc4 (b ^^^ e) (checkValue .crc4 b ^^^ f) = true ↔
      ∃ k < 4, e = 1#8 <<< k ∧ f = 1#8 <<< (k + 4)))

/-- R109: parity detects an odd number of flips of the byte and its parity value and passes an even
number; a flip of a bit 1 to 7 of the parity byte always fails. -/
def Obligations.ParityDetectsOddFlips : Prop :=
  ∀ codec : Codec, codec = .par1 ∨ codec = .par2 → ∀ b e : Byte,
    (verify codec (b ^^^ e) (checkValue codec b) = true ↔ popcount e % 2 = 0) ∧
    (verify codec (b ^^^ e) (checkValue codec b ^^^ 1) = true ↔ popcount e % 2 = 1) ∧
    ∀ f : Byte, 2 ≤ f.toNat → verify codec (b ^^^ e) (checkValue codec b ^^^ f) = false

/-- R106, R107: the parity check byte is 1 exactly when the byte has an odd number of one bits, else 0,
and it is compared whole. -/
def Obligations.ParityIsOddBitCount : Prop :=
  ∀ codec : Codec, codec = .par1 ∨ codec = .par2 → ∀ b c : Byte,
    checkValue codec b = (if popcount b % 2 = 1 then 0x01 else 0x00) ∧
    (verify codec b c = true ↔ checkValue codec b = c)

/-- R129, which the spec marks as derived: a check value is never a tag value. -/
def Obligations.CheckValuesAreNeverTags : Prop :=
  ∀ b : Byte, (checkValue .crc4 b).toNat ≤ 0x0F ∧ (checkValue .par1 b).toNat ≤ 1 ∧
    (checkValue .par2 b).toNat ≤ 1 ∧ ∀ codec : Codec, isTag (checkValue codec b) = false

/-- R110: CHK answers the check value of A and changes no state. -/
def Obligations.ChkReturnsTheCheckValue : Prop :=
  (∀ (s : State) (a : Byte), Answers (exec (.chk a) s) s .ok ((checkValue s.cfg.codec a).setWidth 32) []) ∧
  (∀ a : Byte, encode (.chk a) = mkWord 0x8 0 a 0) ∧
  (∀ a : Byte, (checkValue .crc4 a).toNat ≤ 0xF ∧ (checkValue .par1 a).toNat ≤ 1 ∧
    (checkValue .par2 a).toNat ≤ 1) ∧
  (∀ s : State, s.cfg.codec = .crc4 → Answers (exec (.chk 0x41) s) s .ok 0x4 []) ∧
  ∀ s : State, s.cfg.codec = .par1 → Answers (exec (.chk 0x41) s) s .ok 0 []

/-- R111: VFY answers 1 if the check byte B is valid for A, else 0, and changes no state; in particular
it never sets the latch: only FEED does, on its own or inside RXB (R141). -/
def Obligations.VfyReturnsValidity : Prop :=
  (∀ (s : State) (a b : Byte),
    Answers (exec (.vfy a b) s) s .ok (if verify s.cfg.codec a b = true then 1 else 0) []) ∧
  (∀ a b : Byte, encode (.vfy a b) = mkWord 0x9 0 a b) ∧
  (∀ s : State, s.cfg.codec = .crc4 → Answers (exec (.vfy 0x41 0x7D) s) s .ok 1 [] ∧
    Answers (exec (.vfy 0x41 0x04) s) s .ok 1 [] ∧ Answers (exec (.vfy 0x41 0x05) s) s .ok 0 []) ∧
  (∀ (s : State) (a : Byte), s.cfg.codec = .par1 → Answers (exec (.vfy a 0x7B) s) s .ok 0 []) ∧
  ∀ (i : Instr) (s t : State), exec i s = .next t → s.latch = false → t.latch = true →
    i = .feed ∨ ∃ a, i = .rxb a

/-! ### The encoder -/

/-- R121. -/
def Obligations.EscapeSetsFollowTheTable : Prop :=
  ∀ b : Byte,
    (b ∈ escapeSet .crc4 ↔ b = 0x7B ∨ b = 0x7D ∨ b = 0x5C) ∧
    (b ∈ escapeSet .par1 ↔ b = 0x7B ∨ b = 0x7D ∨ b = 0x5C ∨ b = 0x00 ∨ b = 0x01) ∧
    (b ∈ escapeSet .par2 ↔ b = 0x7B ∨ b = 0x7D ∨ b = 0x5C ∨ b = 0x00 ∨ b = 0x01)

/-- R122: TXSOF emits START, under every codec, and changes no state. -/
def Obligations.TxsofEmitsStart : Prop :=
  (∀ s : State, Answers (exec .txsof s) s .ok 0 [0x7B]) ∧ encode .txsof = 0x50000000

/-- R123: TXD emits its byte and the check value, ESCAPE first where the byte is in the escape set, and
changes no state. -/
def Obligations.TxdEmitsByteAndCheckValue : Prop :=
  (∀ (s : State) (a : Byte), Answers (exec (.txd a) s) s .ok 0
    ((if a ∈ escapeSet s.cfg.codec then [0x5C] else []) ++ [a, checkValue s.cfg.codec a])) ∧
  (∀ a : Byte, encode (.txd a) = mkWord 0x6 0 a 0) ∧
  (∀ s : State, s.cfg.codec = .crc4 →
    Answers (exec (.txd 0x00) s) s .ok 0 [0x00, 0x00] ∧ Answers (exec (.txd 0x41) s) s .ok 0 [0x41, 0x04] ∧
    Answers (exec (.txd 0x5C) s) s .ok 0 [0x5C, 0x5C, 0x05] ∧
    Answers (exec (.txd 0x7B) s) s .ok 0 [0x5C, 0x7B, 0x06] ∧
    Answers (exec (.txd 0x7D) s) s .ok 0 [0x5C, 0x7D, 0x0C]) ∧
  ∀ s : State, s.cfg.codec = .par1 ∨ s.cfg.codec = .par2 →
    Answers (exec (.txd 0x00) s) s .ok 0 [0x5C, 0x00, 0x00] ∧
    Answers (exec (.txd 0x01) s) s .ok 0 [0x5C, 0x01, 0x01] ∧
    Answers (exec (.txd 0x5C) s) s .ok 0 [0x5C, 0x5C, 0x00] ∧
    Answers (exec (.txd 0x7B) s) s .ok 0 [0x5C, 0x7B, 0x00] ∧
    Answers (exec (.txd 0x7D) s) s .ok 0 [0x5C, 0x7D, 0x00]

/-- R124: TXEOF emits STOP, under every codec, and changes no state. -/
def Obligations.TxeofEmitsStop : Prop :=
  (∀ s : State, Answers (exec .txeof s) s .ok 0 [0x7D]) ∧ encode .txeof = 0x70000000

/-- R60: the frames of the grammar are exactly what the encoder emits. -/
def Obligations.EncoderEmitsTheGrammar : Prop :=
  ∀ (codec : Codec) (bytes : List Byte), IsFrame codec bytes ↔ ∃ payload, bytes = encodePayload codec payload

/-- R126, which the spec marks as derived: a payload of n bytes, e of them in the escape set, encodes to
2n + e + 2 bytes. -/
def Obligations.EncodedLength : Prop :=
  ∀ (codec : Codec) (payload : List Byte),
    (encodePayload codec payload).length =
      2 * payload.length + payload.countP (fun b => b ∈ escapeSet codec) + 2

/-- R127, which the spec marks as derived: in an encoded payload a tag value stands only at the two ends,
as an escaped data byte, or as the ESCAPE before one. -/
def Obligations.EncodedTagsAreEscaped : Prop :=
  ∀ (codec : Codec) (payload : List Byte) (i : Nat) (b : Byte),
    (encodePayload codec payload)[i]? = some b → isTag b = true →
    (i = 0 ∧ b = START) ∨
    (i + 1 = (encodePayload codec payload).length ∧ b = STOP) ∨
    (∃ j, i = j + 1 ∧ (encodePayload codec payload)[j]? = some ESCAPE) ∨
    (b = ESCAPE ∧ ∃ d ∈ escapeSet codec, (encodePayload codec payload)[i + 1]? = some d ∧
      (encodePayload codec payload)[i + 2]? = some (checkValue codec d))

/-- R125, which the spec marks as derived: the responses to the commands of ENCODE are all OK, and their
bytes in order are the encoded payload; buffer and latch stay. -/
def Obligations.EncodeCommandsEmitTheFrame : Prop :=
  ∀ (s : State) (payload : List Byte) (rest : List Word),
    s.commands = (pseudoEncode payload).map encode ++ rest →
    ∃ new : List Response,
      Host.Core.run Sys2Proof.core (payload.length + 2) s =
        .next { s with commands := rest, responses := s.responses ++ new } ∧
      (new.map Response.bytes).flatten = encodePayload s.cfg.codec payload ∧
      ∀ r ∈ new, r.code = .ok ∧ r.value = 0

/-! ### The reassembler -/

/-- R140: APPEND adds its byte at the end of the buffer, after clearing a full one, whatever the latch,
and writes nothing else. -/
def Obligations.AppendAddsItsByte : Prop :=
  (∀ (s : State) (a : Byte), s.cfg.maxBuf ≠ .finite s.buf.length →
    Answers (exec (.append a) s) { s with buf := s.buf ++ [a] } .ok 0 []) ∧
  (∀ (s : State) (a : Byte), s.cfg.maxBuf = .finite s.buf.length →
    Answers (exec (.append a) s) { s with buf := [a] } .ok 0 []) ∧
  (∀ a : Byte, encode (.append a) = mkWord 0x3 0 a 0) ∧
  ∀ s : State, s.buf = [] → Answers (exec (.append 0x7B) s) { s with buf := [0x7B] } .ok 0 []

/-- R141: RXB answers what FEED answers after APPEND, and leaves what it leaves. -/
def Obligations.RxbIsAppendThenFeed : Prop :=
  (∀ (s : State) (a : Byte), ∃ (u t : State) (code : ResultCode) (bytes : List Byte),
    Answers (exec (.append a) s) u .ok 0 [] ∧ Answers (exec .feed u) t code 0 bytes ∧
    Answers (exec (.rxb a) s) t code 0 bytes) ∧
  ∀ a : Byte, encode (.rxb a) = mkWord 0x2 0 a 0

/-- R144: a latched CRC4 or PAR1 instance answers LATCHED and empties the buffer; a PAR2 FEED answers and
leaves what it would with the latch clear, and that is never LATCHED; under CRC4 and PAR1 every command but RESET
keeps a set latch. -/
def Obligations.LatchedFeedDecodesNothing : Prop :=
  (∀ s : State, s.cfg.codec ≠ .par2 → s.latch = true →
    Answers (exec .feed s) { s with buf := [] } .latched 0 []) ∧
  (∀ s : State, s.cfg.codec = .par2 →
    ∃ t code bytes, Answers (exec .feed s) t code 0 bytes ∧
      Answers (exec .feed { s with latch := false }) t code 0 bytes ∧ code ≠ .latched) ∧
  ∀ (i : Instr) (s t : State), s.cfg.codec ≠ .par2 → s.latch = true → i ≠ .reset → exec i s = .next t →
    t.latch = true

/-- R145: with no START in the buffer FEED empties it and answers NO_START, and sets the latch except
under PAR2; the bytes before the first START count for nothing. -/
def Obligations.FeedSeeksTheFirstStart : Prop :=
  (∀ s : State, Unlatched s → START ∉ s.buf →
    Answers (exec .feed s) { s with buf := [], latch := decide (s.cfg.codec ≠ .par2) } .noStart 0 []) ∧
  ∀ (s : State) (garbage rest : List Byte), START ∉ garbage → s.buf = garbage ++ START :: rest →
    ∃ t code bytes, Answers (exec .feed s) t code 0 bytes ∧
      Answers (exec .feed { s with buf := START :: rest }) t code 0 bytes

/-- R148: after verified pairs, a STOP in a data position delivers their payload and leaves the bytes
after it. (That the empty frame delivers the empty payload is a point the spec marks as derived.) -/
def Obligations.StopDeliversTheFrame : Prop :=
  ∀ (s : State) (pairs data rest : List Byte), Unlatched s → Verified s.cfg.codec pairs data →
    s.buf = START :: (pairs ++ STOP :: rest) →
    Answers (exec .feed s) { s with buf := rest, latch := false } .frameReady 0 data

/-- R150: after verified pairs, a START in a data position restarts the frame there. (That it
emits no diagnostic is left out, R68.) -/
def Obligations.MidFrameStartResynchronizes : Prop :=
  ∀ (s : State) (pairs data rest : List Byte), Verified s.cfg.codec pairs data →
    s.buf = START :: (pairs ++ START :: rest) →
    ∃ t code bytes, Answers (exec .feed s) t code 0 bytes ∧
      Answers (exec .feed { s with buf := START :: rest }) t code 0 bytes

/-- R153: under PAR2 a plain literal before a START is dropped with the payload so far, and the frame
restarts at that START. -/
def Obligations.ParTwoRecoversFromCorruptedStop : Prop :=
  ∀ (s : State) (pairs data rest : List Byte) (literal : Byte), s.cfg.codec = .par2 →
    Verified s.cfg.codec pairs data → isTag literal = false →
    s.buf = START :: (pairs ++ literal :: START :: rest) →
    ∃ t code bytes, Answers (exec .feed s) t code 0 bytes ∧
      Answers (exec .feed { s with buf := START :: rest }) t code 0 bytes

/-- R151: after verified pairs, a pair that fails its check answers FRAME_ERROR with no payload and sets
the latch; the bytes after it stay under PAR2 and go under CRC4 and PAR1. -/
def Obligations.CheckMismatchDiscardsTheFrame : Prop :=
  ∀ (s : State) (pairs data failing rest : List Byte), Unlatched s → Verified s.cfg.codec pairs data →
    FailingPair s.cfg.codec failing → s.buf = START :: (pairs ++ failing ++ rest) →
    Answers (exec .feed s)
      { s with buf := if s.cfg.codec = .par2 then rest else [], latch := true } .frameError 0 []

/-- R149, R152, R154: after verified pairs, the end of the buffer or a pair cut short answers INCOMPLETE
and keeps the buffer. -/
def Obligations.CutFrameWaits : Prop :=
  ∀ (s : State) (pairs data tail : List Byte), Unlatched s → Verified s.cfg.codec pairs data → CutPair tail →
    s.buf = START :: (pairs ++ tail) →
    Answers (exec .feed s) { s with latch := false } .incomplete 0 []

/-- R143: from every state FEED answers and leaves what the algorithm with its index does, which ends
within one turn more than the buffer has bytes. -/
def Obligations.FeedFollowsTheIndexedAlgorithm : Prop :=
  ∀ (s : State) (turns : Nat), s.buf.length < turns →
    ∃ r, indexedFeed s.cfg.codec turns s.buf s.latch = some r ∧
      Answers (exec .feed s) { s with buf := r.buf, latch := r.latch } r.code 0 r.bytes

/-- R29, R201: the result, the buffer and the latch FEED leaves, from every state. INCOMPLETE keeps the
buffer from the current START on; FRAME_READY leaves the bytes after the frame's STOP and delivers the
payload of the pairs before it; FRAME_ERROR leaves, under PAR2, the bytes after the failing pair's check
byte. The spec marks R29's table as derived. -/
def Obligations.FeedResultsLeaveTheirBuffers : Prop :=
  ∀ s : State, ∃ t code bytes, Answers (exec .feed s) t code 0 bytes ∧
    t = { s with buf := t.buf, latch := t.latch } ∧
    ((code = .latched ∧ s.cfg.codec ≠ .par2 ∧ s.latch = true ∧ bytes = [] ∧ t.buf = [] ∧ t.latch = true) ∨
     (code = .noStart ∧ Unlatched s ∧ START ∉ s.buf ∧ bytes = [] ∧ t.buf = [] ∧
       t.latch = decide (s.cfg.codec ≠ .par2)) ∨
     (code = .incomplete ∧ Unlatched s ∧ bytes = [] ∧ t.latch = false ∧
       ∃ before pairs data tail, Verified s.cfg.codec pairs data ∧ CutPair tail ∧
         t.buf = START :: (pairs ++ tail) ∧ s.buf = before ++ t.buf) ∨
     (code = .frameReady ∧ Unlatched s ∧ t.latch = false ∧
       ∃ before pairs, Verified s.cfg.codec pairs bytes ∧
         s.buf = before ++ START :: (pairs ++ STOP :: t.buf)) ∨
     (code = .frameError ∧ Unlatched s ∧ bytes = [] ∧ t.latch = true ∧
       ∃ before pairs data failing rest, Verified s.cfg.codec pairs data ∧ FailingPair s.cfg.codec failing ∧
         s.buf = before ++ START :: (pairs ++ failing ++ rest) ∧
         t.buf = if s.cfg.codec = .par2 then rest else []))

/-- R49, which the spec marks as derived: FEED again after INCOMPLETE, with no byte in between, answers
INCOMPLETE and changes nothing. -/
def Obligations.FeedAfterIncompleteRepeats : Prop :=
  ∀ s t : State, Answers (exec .feed s) t .incomplete 0 [] → Answers (exec .feed t) t .incomplete 0 []

/-- R157, which the spec marks as derived: RXB keeps the buffer settled, and leaves it empty after every
result but INCOMPLETE. -/
def Obligations.RxbKeepsTheBufferSettled : Prop :=
  ∀ (s : State) (a : Byte), Settled s →
    ∃ t code bytes, Answers (exec (.rxb a) s) t code 0 bytes ∧ Settled t ∧ (code = .incomplete ∨ t.buf = [])

/-- R158, which the spec marks as derived: an encoded payload received byte by byte answers INCOMPLETE
for every byte but the last, and then delivers the payload. MAX_BUF must allow the frame (R43 would
clear it otherwise). -/
def Obligations.RoundTripPerByte : Prop :=
  ∀ (s : State) (payload : List Byte) (rest : List Word), s.buf = [] → Unlatched s →
    s.cfg.maxBuf.Admits (encodePayload s.cfg.codec payload).length →
    s.commands = (pseudoRxseq (encodePayload s.cfg.codec payload)).map encode ++ rest →
    ∃ t : State,
      Host.Core.run Sys2Proof.core (encodePayload s.cfg.codec payload).length s = .next t ∧
      t = { s with latch := false, commands := rest, responses := t.responses } ∧
      contracts t = contracts s ++
        List.replicate ((encodePayload s.cfg.codec payload).length - 1) (.incomplete, 0, []) ++
        [(.frameReady, 0, payload)]

/-- R158, R159, which the spec marks as derived: an encoded payload put in the buffer at once, garbage
without a START before it, is delivered by one FEED. MAX_BUF must allow it. -/
def Obligations.RoundTripBulkAfterGarbage : Prop :=
  ∀ (s : State) (garbage payload : List Byte) (rest : List Word), s.buf = [] → Unlatched s →
    START ∉ garbage →
    s.cfg.maxBuf.Admits (garbage ++ encodePayload s.cfg.codec payload).length →
    s.commands = (pseudoBulk (garbage ++ encodePayload s.cfg.codec payload)).map encode ++ rest →
    ∃ t : State,
      Host.Core.run Sys2Proof.core ((garbage ++ encodePayload s.cfg.codec payload).length + 1) s = .next t ∧
      t = { s with latch := false, commands := rest, responses := t.responses } ∧
      contracts t = contracts s ++
        List.replicate (garbage ++ encodePayload s.cfg.codec payload).length (.ok, 0, []) ++
        [(.frameReady, 0, payload)]

/-- R159, R234, which the spec marks as derived: per byte, a byte other than START that arrives while the
buffer holds no START answers NO_START, empties the buffer and latches CRC4 and PAR1, not PAR2. -/
def Obligations.GarbageByteLatchesPerByteDrive : Prop :=
  ∀ (s : State) (a : Byte), Unlatched s → START ∉ s.buf → a ≠ START →
    Answers (exec (.rxb a) s) { s with buf := [], latch := decide (s.cfg.codec ≠ .par2) } .noStart 0 []

/-! ### The assembler -/

/-- R69: every command of an assigned opcode has a text line, and the assembler reads it back. -/
def Obligations.AssemblerReadsRenderedCommands : Prop :=
  ∀ i : Instr, i.wf = true → ∃ line, renderInstr i = some line ∧ assembleLine line = some [i]
end

