-- ==== Sys2Proof/Laws/Codec.lean ====
section
/-! SUPPORT. The codec functions: CRC-4 division is linear, and parity is a count of one bits. -/

namespace Sys2Proof.Machine

/-- One turn of the division is linear over GF(2), on remainders below g's top bit. -/
theorem crcStep_xor (v w : BitVec 12) (i : Nat) :
    ∀ r s : BitVec 5, crcStep (v ^^^ w) (r ^^^ s) i = crcStep v r i ^^^ crcStep w s i := by
  unfold crcStep
  rw [BitVec.getLsbD_xor]
  generalize v.getLsbD i = x
  generalize w.getLsbD i = y
  revert x y
  decide +kernel

theorem crcFold_xor (v w : BitVec 12) (l : List Nat) :
    ∀ r s : BitVec 5,
      l.foldl (crcStep (v ^^^ w)) (r ^^^ s) = l.foldl (crcStep v) r ^^^ l.foldl (crcStep w) s := by
  induction l with
  | nil => intro r s; rfl
  | cons i l ih => intro r s; rw [List.foldl_cons, List.foldl_cons, List.foldl_cons, crcStep_xor, ih]

/-- `crcdiv12` is linear over GF(2). -/
theorem crcdiv12_xor (v w : BitVec 12) : crcdiv12 (v ^^^ w) = crcdiv12 v ^^^ crcdiv12 w := by
  have h := crcFold_xor v w [11, 10, 9, 8, 7, 6, 5, 4, 3, 2, 1, 0] 0 0
  rw [show (0 : BitVec 5) ^^^ 0 = 0 from rfl] at h
  unfold crcdiv12
  rw [h, BitVec.setWidth_xor]

theorem dividend_xor (a b : Byte) : dividend (a ^^^ b) = dividend a ^^^ dividend b := by
  unfold dividend
  rw [BitVec.setWidth_xor, BitVec.shiftLeft_xor_distrib]

/-- A value below 16 is its own remainder. -/
theorem crcdiv12_small : ∀ r : BitVec 4, crcdiv12 (r.setWidth 12) = r := by decide +kernel

theorem verify_par1 (b c : Byte) : verify .par1 b c = verifyPar b c := rfl
theorem verify_par2 (b c : Byte) : verify .par2 b c = verifyPar b c := rfl
theorem verify_crc4 (b c : Byte) : verify .crc4 b c = verifyCrc4 b c := rfl

/-- CRC-4 compares the remainder of the data with that of the received byte. -/
theorem verifyCrc4_iff (b c : Byte) :
    verifyCrc4 b c = true ↔ crcdiv12 (dividend b) = crcdiv12 (c.setWidth 12) := by
  unfold verifyCrc4
  rw [decide_eq_true_iff, crcdiv12_xor]
  exact BitVec.xor_eq_zero_iff

theorem verifyPar_iff (b c : Byte) : verifyPar b c = true ↔ checkValuePar b = c := by
  unfold verifyPar
  rw [decide_eq_true_iff]

/-- A check value verifies, for every codec. -/
theorem verify_checkValue (codec : Codec) (b : Byte) : verify codec b (checkValue codec b) = true := by
  cases codec with
  | crc4 =>
    rw [verify_crc4, verifyCrc4_iff]
    have widen : ∀ r : BitVec 4, (r.setWidth 8).setWidth 12 = r.setWidth 12 := by decide
    rw [show checkValue .crc4 b = (crcdiv12 (dividend b)).setWidth 8 from rfl, widen, crcdiv12_small]
  | par1 => rw [verify_par1, verifyPar_iff]; rfl
  | par2 => rw [verify_par2, verifyPar_iff]; rfl

/-- A tag is never a valid parity. -/
theorem verifyPar_tag : ∀ b : Byte, verifyPar b START = false ∧ verifyPar b STOP = false ∧ verifyPar b ESCAPE = false := by
  decide +kernel

end Sys2Proof.Machine
end

