-- ==== Sys2Proof/Laws/Fields.lean ====
section
/-! SUPPORT. The fields of a command word put together and taken apart (R62). -/

namespace Sys2Proof.Machine

section Fields

variable (op : BitVec 4) (rsv : BitVec 12) (a b : Byte) (low : BitVec 28) (w : Word)

/-- Bit by bit, the word of four fields. -/
theorem getLsbD_mkWord (i : Nat) :
    (mkWord op rsv a b).getLsbD i =
      if i < 8 then b.getLsbD i
      else if i - 8 < 8 then a.getLsbD (i - 8)
      else if i - 8 - 8 < 12 then rsv.getLsbD (i - 8 - 8)
      else op.getLsbD (i - 8 - 8 - 12) := by
  unfold mkWord
  rw [BitVec.getLsbD_append, BitVec.getLsbD_append, BitVec.getLsbD_append]

/-- Bit by bit, the word of an opcode and the 28 bits below it. -/
theorem getLsbD_mkReservedWord (i : Nat) :
    (mkReservedWord op low).getLsbD i = if i < 28 then low.getLsbD i else op.getLsbD (i - 28) := by
  unfold mkReservedWord
  rw [BitVec.getLsbD_append]

@[simp] theorem fieldOp_mkWord : fieldOp (mkWord op rsv a b) = op := by
  apply BitVec.eq_of_getLsbD_eq
  intro i hi
  unfold fieldOp
  rw [BitVec.getLsbD_extractLsb', getLsbD_mkWord]
  grind

@[simp] theorem fieldRsv_mkWord : fieldRsv (mkWord op rsv a b) = rsv := by
  apply BitVec.eq_of_getLsbD_eq
  intro i hi
  unfold fieldRsv
  rw [BitVec.getLsbD_extractLsb', getLsbD_mkWord]
  grind

@[simp] theorem fieldA_mkWord : fieldA (mkWord op rsv a b) = a := by
  apply BitVec.eq_of_getLsbD_eq
  intro i hi
  unfold fieldA
  rw [BitVec.getLsbD_extractLsb', getLsbD_mkWord]
  grind

@[simp] theorem fieldB_mkWord : fieldB (mkWord op rsv a b) = b := by
  apply BitVec.eq_of_getLsbD_eq
  intro i hi
  unfold fieldB
  rw [BitVec.getLsbD_extractLsb', getLsbD_mkWord]
  grind

@[simp] theorem fieldOp_mkReservedWord : fieldOp (mkReservedWord op low) = op := by
  apply BitVec.eq_of_getLsbD_eq
  intro i hi
  unfold fieldOp
  rw [BitVec.getLsbD_extractLsb', getLsbD_mkReservedWord]
  grind

@[simp] theorem fieldLow_mkReservedWord : fieldLow (mkReservedWord op low) = low := by
  apply BitVec.eq_of_getLsbD_eq
  intro i hi
  unfold fieldLow
  rw [BitVec.getLsbD_extractLsb', getLsbD_mkReservedWord]
  grind

/-- A word is its four fields. -/
theorem mkWord_fields : mkWord (fieldOp w) (fieldRsv w) (fieldA w) (fieldB w) = w := by
  apply BitVec.eq_of_getLsbD_eq
  intro i hi
  rw [getLsbD_mkWord]
  simp only [fieldOp, fieldRsv, fieldA, fieldB, BitVec.getLsbD_extractLsb']
  grind

/-- A word is its opcode and the 28 bits below it. -/
theorem mkReservedWord_fields : mkReservedWord (fieldOp w) (fieldLow w) = w := by
  apply BitVec.eq_of_getLsbD_eq
  intro i hi
  rw [getLsbD_mkReservedWord]
  simp only [fieldOp, fieldLow, BitVec.getLsbD_extractLsb']
  grind

end Fields

end Sys2Proof.Machine
end

