-- ==== Sys2Proof/Laws/State.lean ====
section
/-! SUPPORT. What each update of the state leaves in each field: one lemma per field per update. -/

namespace Sys2Proof.Machine

section Fields

variable (s : State) (bytes : List Byte) (v : Bool) (r : Response) (b : Byte) (w : Word) (cfg : Config)

@[simp] theorem State.setBuf_cfg : (s.setBuf bytes).cfg = s.cfg := rfl
@[simp] theorem State.setBuf_buf : (s.setBuf bytes).buf = bytes := rfl
@[simp] theorem State.setBuf_latch : (s.setBuf bytes).latch = s.latch := rfl
@[simp] theorem State.setBuf_commands : (s.setBuf bytes).commands = s.commands := rfl
@[simp] theorem State.setBuf_responses : (s.setBuf bytes).responses = s.responses := rfl

@[simp] theorem State.setLatch_cfg : (s.setLatch v).cfg = s.cfg := rfl
@[simp] theorem State.setLatch_buf : (s.setLatch v).buf = s.buf := rfl
@[simp] theorem State.setLatch_latch : (s.setLatch v).latch = v := rfl
@[simp] theorem State.setLatch_commands : (s.setLatch v).commands = s.commands := rfl
@[simp] theorem State.setLatch_responses : (s.setLatch v).responses = s.responses := rfl

@[simp] theorem State.pushResponse_cfg : (s.pushResponse r).cfg = s.cfg := rfl
@[simp] theorem State.pushResponse_buf : (s.pushResponse r).buf = s.buf := rfl
@[simp] theorem State.pushResponse_latch : (s.pushResponse r).latch = s.latch := rfl
@[simp] theorem State.pushResponse_commands : (s.pushResponse r).commands = s.commands := rfl
@[simp] theorem State.pushResponse_responses : (s.pushResponse r).responses = s.responses ++ [r] := rfl

@[simp] theorem bufAppend_cfg : (bufAppend s b).cfg = s.cfg := rfl
@[simp] theorem bufAppend_buf : (bufAppend s b).buf = appended s.cfg.maxBuf s.buf b := rfl
@[simp] theorem bufAppend_latch : (bufAppend s b).latch = s.latch := rfl
@[simp] theorem bufAppend_commands : (bufAppend s b).commands = s.commands := rfl
@[simp] theorem bufAppend_responses : (bufAppend s b).responses = s.responses := rfl

@[simp] theorem issueCommand_cfg : (issueCommand s w).cfg = s.cfg := rfl
@[simp] theorem issueCommand_buf : (issueCommand s w).buf = s.buf := rfl
@[simp] theorem issueCommand_latch : (issueCommand s w).latch = s.latch := rfl
@[simp] theorem issueCommand_commands : (issueCommand s w).commands = w :: s.commands := rfl
@[simp] theorem issueCommand_responses : (issueCommand s w).responses = s.responses := rfl

@[simp] theorem State.powerOn_cfg : (State.powerOn cfg).cfg = cfg := rfl
@[simp] theorem State.powerOn_buf : (State.powerOn cfg).buf = [] := rfl
@[simp] theorem State.powerOn_latch : (State.powerOn cfg).latch = false := rfl
@[simp] theorem State.powerOn_commands : (State.powerOn cfg).commands = [] := rfl
@[simp] theorem State.powerOn_responses : (State.powerOn cfg).responses = [] := rfl

end Fields

/-- Two states with equal fields are equal. -/
theorem State.eq_of_fields {s t : State} (cfg : s.cfg = t.cfg) (buf : s.buf = t.buf) (latch : s.latch = t.latch)
    (commands : s.commands = t.commands) (responses : s.responses = t.responses) : s = t := by
  cases s; cases t; simp_all

end Sys2Proof.Machine
end

