-- ==== Sys2Proof/Laws/Ops.lean ====
section
/-! SUPPORT. What each shared operation does, said once. -/

namespace Sys2Proof.Machine

/-- Every command ends in `answer`, and this is all that `answer` does. -/
theorem answer_answers (s : State) (code : ResultCode) (value : Word) (bytes : List Byte) (diags : List Diag) :
    Answers (answer s code value bytes diags) s code value bytes :=
  ⟨diags, rfl⟩

theorem answerIllegal_answers (s : State) : Answers (answerIllegal s) s .illegal 0 [] :=
  answer_answers s _ _ _ _

/-- An answer fixes everything but the diagnostics. -/
theorem Answers.contract_unique {o : Host.Outcome State Fault Refusal} {t t' : State} {code code' : ResultCode}
    {value value' : Word} {bytes bytes' : List Byte} (h : Answers o t code value bytes)
    (h' : Answers o t' code' value' bytes') :
    t = t' ∧ code = code' ∧ value = value' ∧ bytes = bytes' := by
  obtain ⟨d, rfl⟩ := h
  obtain ⟨d', e⟩ := h'
  simp only [Host.Outcome.next.injEq, State.mk.injEq] at e
  obtain ⟨hc, hb, hl, hm, hr⟩ := e
  obtain ⟨hresp, hlast⟩ := List.append_inj' hr rfl
  simp only [List.cons.injEq, Response.mk.injEq, and_true] at hlast
  obtain ⟨rfl, rfl, rfl, -⟩ := hlast
  exact ⟨State.eq_of_fields hc hb hl hm hresp, rfl, rfl, rfl⟩

/-- The outcome of an answer is a next state. -/
theorem Answers.next {o : Host.Outcome State Fault Refusal} {t : State} {code : ResultCode}
    {value : Word} {bytes : List Byte} (h : Answers o t code value bytes) : ∃ u, o = .next u := by
  obtain ⟨d, rfl⟩ := h
  exact ⟨_, rfl⟩

theorem bufferFull_iff (maxBuf : MaxBuf) (buf : List Byte) :
    bufferFull maxBuf buf = true ↔ maxBuf = .finite buf.length := by
  cases maxBuf <;> simp [bufferFull, eq_comm]

/-- `BufAppend` leaves the byte alone in the buffer or puts it at its end. -/
theorem appended_cases (maxBuf : MaxBuf) (buf : List Byte) (b : Byte) :
    (maxBuf = .finite buf.length ∧ appended maxBuf buf b = [b]) ∨
      (maxBuf ≠ .finite buf.length ∧ appended maxBuf buf b = buf ++ [b]) := by
  unfold appended
  split <;> simp_all [bufferFull_iff]

/-- `BufAppend` keeps the buffer within a positive MAX_BUF. -/
theorem appended_admitted {cfg : Config} {buf : List Byte} (b : Byte) (legal : cfg.wf = true)
    (fits : cfg.maxBuf.Admits buf.length) : cfg.maxBuf.Admits (appended cfg.maxBuf buf b).length := by
  obtain ⟨codec, m⟩ := cfg
  cases m with
  | unbounded => trivial
  | finite limit =>
    obtain ⟨h, e⟩ | ⟨h, e⟩ := appended_cases (.finite limit) buf b <;>
      simp_all [MaxBuf.Admits, Config.wf] <;> omega

/-- What the framer accepts: the oldest waiting word, if there is one. -/
theorem acceptCommand_cases (s : State) :
    (s.commands = [] ∧ acceptCommand s = none) ∨
      ∃ w rest, s.commands = w :: rest ∧ acceptCommand s = some (w, { s with commands := rest }) := by
  unfold acceptCommand
  cases h : s.commands with
  | nil => exact .inl ⟨rfl, rfl⟩
  | cons w rest => exact .inr ⟨w, rest, rfl, rfl⟩

/-- A word issued to a framer with an empty port is the next it accepts. -/
theorem acceptCommand_issueCommand (s : State) (w : Word) : acceptCommand (issueCommand s w) = some (w, s) :=
  rfl

/-- Dropping no byte changes nothing (R42). -/
@[simp] theorem bufDropFront_zero (buf : List Byte) : bufDropFront 0 buf = buf := rfl

@[simp] theorem bufDropFront_length (n : Nat) (buf : List Byte) :
    (bufDropFront n buf).length = buf.length - n :=
  List.length_drop

end Sys2Proof.Machine
end

