-- ==== Sys2Proof/Laws/PerInstr.lean ====
section
/-! SUPPORT. A fact about each command, one lemma per constructor: the word the encoder writes is a word
of the command's own row of the opcode table, by mask and pattern. -/

namespace Sys2Proof.Laws.EncodesIntoItsRow

open Sys2Proof Sys2Proof.Machine

/-- The pattern and mask of a command's row in spec/opcode_table.json. -/
def row : Instr → Word × Word
  | .nop => (0x00000000, 0xFFFFFFFF)
  | .reset => (0x10000000, 0xFFFFFFFF)
  | .rxb _ => (0x20000000, 0xFFFF00FF)
  | .append _ => (0x30000000, 0xFFFF00FF)
  | .feed => (0x40000000, 0xFFFFFFFF)
  | .txsof => (0x50000000, 0xFFFFFFFF)
  | .txd _ => (0x60000000, 0xFFFF00FF)
  | .txeof => (0x70000000, 0xFFFFFFFF)
  | .chk _ => (0x80000000, 0xFFFF00FF)
  | .vfy _ _ => (0x90000000, 0xFFFF0000)
  | .stat => (0xA0000000, 0xFFFFFFFF)
  | .reservedB _ => (0xB0000000, 0xF0000000)
  | .reservedC _ => (0xC0000000, 0xF0000000)
  | .reservedD _ => (0xD0000000, 0xF0000000)
  | .reservedE _ => (0xE0000000, 0xF0000000)
  | .reservedF _ => (0xF0000000, 0xF0000000)

/-- The encoder's word for `i` lies in `i`'s row. -/
def Statement (i : Instr) : Prop := encode i &&& (row i).2 = (row i).1

/-- The low byte of a word under a mask of whole bytes, for words of one operand. -/
theorem maskA (op : BitVec 4) (a : Byte) : mkWord op 0 a 0 &&& 0xFFFF00FF#32 = mkWord op 0 0 0 := by
  apply BitVec.eq_of_getLsbD_eq
  intro i hi
  rw [BitVec.getLsbD_and, getLsbD_mkWord, getLsbD_mkWord]
  interval_cases i <;> simp

theorem maskAB (op : BitVec 4) (a b : Byte) : mkWord op 0 a b &&& 0xFFFF0000#32 = mkWord op 0 0 0 := by
  apply BitVec.eq_of_getLsbD_eq
  intro i hi
  rw [BitVec.getLsbD_and, getLsbD_mkWord, getLsbD_mkWord]
  interval_cases i <;> simp

theorem maskOp (op : BitVec 4) (low : BitVec 28) : mkReservedWord op low &&& 0xF0000000#32 = mkReservedWord op 0 := by
  apply BitVec.eq_of_getLsbD_eq
  intro i hi
  rw [BitVec.getLsbD_and, getLsbD_mkReservedWord, getLsbD_mkReservedWord]
  interval_cases i <;> simp

theorem nop : Statement .nop := by unfold Statement; decide
theorem reset : Statement .reset := by unfold Statement; decide
theorem rxb (a : Byte) : Statement (.rxb a) := maskA 0x2 a
theorem append (a : Byte) : Statement (.append a) := maskA 0x3 a
theorem feed : Statement .feed := by unfold Statement; decide
theorem txsof : Statement .txsof := by unfold Statement; decide
theorem txd (a : Byte) : Statement (.txd a) := maskA 0x6 a
theorem txeof : Statement .txeof := by unfold Statement; decide
theorem chk (a : Byte) : Statement (.chk a) := maskA 0x8 a
theorem vfy (a b : Byte) : Statement (.vfy a b) := maskAB 0x9 a b
theorem stat : Statement .stat := by unfold Statement; decide
theorem reservedB (low : BitVec 28) : Statement (.reservedB low) := maskOp 0xB low
theorem reservedC (low : BitVec 28) : Statement (.reservedC low) := maskOp 0xC low
theorem reservedD (low : BitVec 28) : Statement (.reservedD low) := maskOp 0xD low
theorem reservedE (low : BitVec 28) : Statement (.reservedE low) := maskOp 0xE low
theorem reservedF (low : BitVec 28) : Statement (.reservedF low) := maskOp 0xF low

end Sys2Proof.Laws.EncodesIntoItsRow
end

