-- ==== Sys2Proof/Laws/Reassembler.lean ====
section
/-! SUPPORT. FEED's algorithm, one equation per rule of R144 to R154. -/

namespace Sys2Proof.Machine

theorem START_ne_ESCAPE : START ≠ ESCAPE := by decide
theorem START_ne_STOP : START ≠ STOP := by decide
theorem STOP_ne_ESCAPE : STOP ≠ ESCAPE := by decide

/-- A literal is none of the three tags. -/
theorem isTag_eq_false {b : Byte} : isTag b = false ↔ b ≠ START ∧ b ≠ STOP ∧ b ≠ ESCAPE := by
  simp [isTag]

section Collect

variable (codec : Codec) (latch : Bool) (frame data : List Byte) (diags : List Diag)

/-- R154. -/
theorem collect_nil : collect codec latch frame data diags [] = feedIncomplete latch frame diags := by
  rw [collect]

/-- R148. -/
theorem collect_stop (rest : List Byte) :
    collect codec latch frame data diags (STOP :: rest) = feedReady latch data rest diags := by
  rw [collect.eq_def]
  simp only [if_neg STOP_ne_ESCAPE, if_true]

/-- R150. -/
theorem collect_start (rest : List Byte) :
    collect codec latch frame data diags (START :: rest) = collect codec latch (START :: rest) [] diags rest := by
  rw [collect.eq_def]
  simp only [if_neg START_ne_ESCAPE, if_neg START_ne_STOP, if_true]

/-- R149, a complete escaped pair. -/
theorem collect_escaped (l c : Byte) (rest : List Byte) :
    collect codec latch frame data diags (ESCAPE :: l :: c :: rest) =
      if verify codec l c then collect codec latch frame (data ++ [l]) diags rest
      else feedMismatch codec latch rest diags := by
  rw [collect.eq_def]
  simp only [if_true]

/-- R152 and R153, a complete plain pair. -/
theorem collect_plain {t : Byte} (literal : isTag t = false) (c : Byte) (rest : List Byte) :
    collect codec latch frame data diags (t :: c :: rest) =
      if codec = .par2 ∧ c = START then collect codec latch (c :: rest) [] (diags ++ [.stopCorrupted]) rest
      else if verify codec t c then collect codec latch frame (data ++ [t]) diags rest
      else feedMismatch codec latch rest diags := by
  obtain ⟨hs, hp, he⟩ := isTag_eq_false.mp literal
  rw [collect.eq_def]
  simp only [if_neg he, if_neg hp, if_neg hs]

/-- R149, R152 and R154: a pair that is not complete. -/
theorem collect_cut {tail : List Byte} (cut : CutPair tail) :
    collect codec latch frame data diags tail = feedIncomplete latch frame diags := by
  cases cut with
  | none => exact collect_nil ..
  | plain t literal =>
    obtain ⟨hs, hp, he⟩ := isTag_eq_false.mp literal
    rw [collect.eq_def]
    simp only [if_neg he, if_neg hp, if_neg hs]
  | escape => rw [collect.eq_def]; simp only [if_true]
  | escaped l => rw [collect.eq_def]; simp only [if_true]

end Collect

/-- Verified pairs after verified pairs carry the one payload after the other. -/
theorem Verified.append {codec : Codec} {pairs payload pairs' payload' : List Byte}
    (verified : Verified codec pairs payload) (verified' : Verified codec pairs' payload') :
    Verified codec (pairs ++ pairs') (payload ++ payload') := by
  induction verified with
  | none => exact verified'
  | plain t c pairs payload literal valid _ ih => exact .plain t c _ _ literal valid ih
  | escaped l c pairs payload valid _ ih => exact .escaped l c _ _ valid ih

/-- Verified pairs in front of `tail` only add their payload to the data extracted so far. -/
theorem collect_verified {codec : Codec} {pairs payload : List Byte} (verified : Verified codec pairs payload)
    (latch : Bool) (frame data : List Byte) (diags : List Diag) (tail : List Byte) :
    collect codec latch frame data diags (pairs ++ tail) = collect codec latch frame (data ++ payload) diags tail := by
  induction verified generalizing data with
  | none => rw [List.nil_append, List.append_nil]
  | plain t c pairs payload literal valid _ ih =>
    have kept : ¬(codec = .par2 ∧ c = START) := by
      rintro ⟨rfl, rfl⟩
      rw [verify_par2, (verifyPar_tag t).1] at valid
      exact Bool.noConfusion valid
    rw [List.cons_append, List.cons_append, collect_plain _ _ _ _ _ literal, if_neg kept, if_pos valid, ih,
      List.append_assoc, List.singleton_append]
  | escaped l c pairs payload valid _ ih =>
    rw [List.cons_append, List.cons_append, List.cons_append, collect_escaped, if_pos valid, ih,
      List.append_assoc, List.singleton_append]

/-- R144, a set latch that the codec keeps. -/
theorem feedResult_latched {codec : Codec} (keeps : codec ≠ .par2) (buf : List Byte) :
    feedResult codec buf true = { code := .latched, bytes := [], buf := [], latch := true, diags := [] } := by
  cases codec <;> first | rfl | exact absurd rfl keeps

/-- `Unlatched` is what step 1 of FEED asks. -/
theorem latchAtFeed_eq_false {s : State} : latchAtFeed s.cfg.codec s.latch = false ↔ Unlatched s := by
  unfold Unlatched latchAtFeed
  cases s.cfg.codec <;> simp

/-- Step 2's search finds nothing exactly where there is no START. -/
theorem seekStart_eq_nil (buf : List Byte) : seekStart buf = [] ↔ START ∉ buf := by
  induction buf with
  | nil => simp [seekStart]
  | cons b rest ih =>
    rw [seekStart]
    split
    · next h => simp [h]
    · next h => simp [ih, Ne.symm h]

/-- Step 2's search passes over bytes that are no START (R145). -/
theorem seekStart_append {garbage : List Byte} (none : START ∉ garbage) (rest : List Byte) :
    seekStart (garbage ++ START :: rest) = START :: rest := by
  induction garbage with
  | nil => rw [List.nil_append, seekStart, if_pos rfl]
  | cons b garbage ih =>
    rw [List.mem_cons, not_or] at none
    rw [List.cons_append, seekStart, if_neg (Ne.symm none.1), ih none.2]

/-- R145: an unlatched FEED on a buffer without a START. -/
theorem feedResult_noStart {codec : Codec} {buf : List Byte} {latch : Bool}
    (clear : latchAtFeed codec latch = false) (none : START ∉ buf) :
    feedResult codec buf latch =
      { code := .noStart, bytes := [], buf := [], latch := latchOnNoStart codec false, diags := [] } := by
  unfold feedResult
  rw [clear, (seekStart_eq_nil buf).mpr none]
  rfl

/-- R145, then R143's step 3: an unlatched FEED collects from the first START on. -/
theorem feedResult_start {codec : Codec} {garbage : List Byte} {latch : Bool}
    (clear : latchAtFeed codec latch = false) (none : START ∉ garbage) (rest : List Byte) :
    feedResult codec (garbage ++ START :: rest) latch = collect codec false (START :: rest) [] [] rest := by
  unfold feedResult
  rw [clear, seekStart_append none]
  rfl

/-- Step 2's search is R143's `BufDropFront(index of first START in buf)`. -/
theorem seekStart_eq_bufDropFront (buf : List Byte) : seekStart buf = bufDropFront (buf.idxOf START) buf := by
  unfold bufDropFront
  induction buf with
  | nil => rfl
  | cons b rest ih =>
    rw [seekStart, List.idxOf_cons]
    by_cases h : b = START
    · simp [h]
    · simp [h, ih, beq_false_of_ne h]

/-- All that FEED-body does with its result. -/
theorem feedBody_answers (before : List Diag) (s : State) :
    Answers (feedBody before s)
      { s with buf := (feedResult s.cfg.codec s.buf s.latch).buf,
               latch := (feedResult s.cfg.codec s.buf s.latch).latch }
      (feedResult s.cfg.codec s.buf s.latch).code 0 (feedResult s.cfg.codec s.buf s.latch).bytes :=
  ⟨_, rfl⟩

/-- FEED-body's answer from a known result: two FEEDs with one result have one answer, whatever their
diagnostics. -/
theorem feedBody_answers_of_eq {s : State} {r : FeedResult} (result : feedResult s.cfg.codec s.buf s.latch = r)
    (before : List Diag) :
    Answers (feedBody before s) { s with buf := r.buf, latch := r.latch } r.code 0 r.bytes :=
  result ▸ feedBody_answers before s

end Sys2Proof.Machine
end

