-- ==== Sys2Proof/Tests/Slice0.lean ====
section
/-! SUPPORT. Tests: ill-formed terms the checks refuse, each command's word written out from the spec's
encoding, one or two steps per command with the outcome spec/95_test_vectors.md gives, and for each
statement with hypotheses a case that meets them. -/

namespace Sys2Proof.Tests

open Sys2Proof Sys2Proof.Machine

/-! ### WellFormed refuses ill-formed terms (R64, R65) -/

theorem test_wf_refuses_reservedB : Instr.wf (.reservedB 0) = false := by decide
theorem test_wf_refuses_reservedC : Instr.wf (.reservedC 0) = false := by decide
theorem test_wf_refuses_reservedD : Instr.wf (.reservedD 0) = false := by decide
theorem test_wf_refuses_reservedE : Instr.wf (.reservedE 0) = false := by decide
theorem test_wf_refuses_reservedF : Instr.wf (.reservedF 0) = false := by decide
theorem test_word_wf_refuses_reserved_opcode : wordWellFormed 0xB0000000 = false := by decide
theorem test_word_wf_refuses_reserved_bits : wordWellFormed 0x20010000 = false := by decide
theorem test_word_wf_refuses_unused_A : wordWellFormed 0xA0000100 = false := by decide
theorem test_word_wf_refuses_unused_B : wordWellFormed 0x20007B01 = false := by decide
theorem test_word_wf_accepts_vfy : wordWellFormed 0x9000FFFF = true := by decide
theorem test_config_wf_refuses_zero : Config.wf { codec := .crc4, maxBuf := .finite 0 } = false := by decide

/-! ### Decode: words written out field by field, OP RSV A B (R62, R63) -/

theorem test_decode_nop : decode 0b0000_000000000000_00000000_00000000#32 = .ok .nop := by decide
theorem test_decode_reset : decode 0b0001_000000000000_00000000_00000000#32 = .ok .reset := by decide
theorem test_decode_rxb : decode 0b0010_000000000000_01111011_00000000#32 = .ok (.rxb 0x7B) := by decide
theorem test_decode_append : decode 0b0011_000000000000_10000001_00000000#32 = .ok (.append 0x81) := by decide
theorem test_decode_feed : decode 0b0100_000000000000_00000000_00000000#32 = .ok .feed := by decide
theorem test_decode_txsof : decode 0b0101_000000000000_00000000_00000000#32 = .ok .txsof := by decide
theorem test_decode_txd : decode 0b0110_000000000000_01011100_00000000#32 = .ok (.txd 0x5C) := by decide
theorem test_decode_txeof : decode 0b0111_000000000000_00000000_00000000#32 = .ok .txeof := by decide
theorem test_decode_chk : decode 0b1000_000000000000_00000001_00000000#32 = .ok (.chk 0x01) := by decide
theorem test_decode_vfy : decode 0b1001_000000000000_01000001_00000100#32 = .ok (.vfy 0x41 0x04) := by decide
theorem test_decode_stat : decode 0b1010_000000000000_00000000_00000000#32 = .ok .stat := by decide
theorem test_decode_reservedB : decode 0b1011_000000000001_00000000_00000010#32 = .ok (.reservedB 0x0010002) := by decide
theorem test_decode_reservedC : decode 0b1100_000000000000_00000000_00000000#32 = .ok (.reservedC 0) := by decide
theorem test_decode_reservedD : decode 0b1101_000000000000_00000000_00000000#32 = .ok (.reservedD 0) := by decide
theorem test_decode_reservedE : decode 0b1110_000000000000_00000000_00000000#32 = .ok (.reservedE 0) := by decide
theorem test_decode_reservedF : decode 0b1111_111111111111_11111111_11111111#32 = .ok (.reservedF 0xFFFFFFF) := by decide
theorem test_decode_refuses_reserved_bits : decode 0x4FFF0000 = .error .reservedBits := by decide
theorem test_decode_refuses_unused_A : decode 0xA0000100 = .error .unusedA := by decide
theorem test_decode_refuses_unused_B : decode 0x10000001 = .error .unusedB := by decide
theorem test_decodeTableWord_vfy : decodeTableWord 32 0x90004104 = some (.vfy 0x41 0x04) := by decide
theorem test_decodeTableWord_illegal : decodeTableWord 32 0x20010400 = none := by decide

/-- No word lies in two rows of the opcode table: two rows' patterns differ on their common mask. -/
theorem test_opcode_rows_do_not_overlap :
    (commandRows ++ reservedRows).Pairwise fun r q => r.pattern &&& (r.mask &&& q.mask) ≠ q.pattern &&& (r.mask &&& q.mask) := by
  decide

/-! ### One step -/

/-- An instance with an unbounded buffer and nothing on its ports. -/
def inst (codec : Codec) (buf : List Byte) (latch : Bool) : State :=
  { cfg := { codec, maxBuf := .unbounded }, buf, latch, commands := [], responses := [] }

/-- Whether an outcome is a next state with this buffer, this latch and these responses. -/
def shows (o : Host.Outcome State Fault Refusal) (buf : List Byte) (latch : Bool)
    (answers : List (ResultCode × Word × List Byte)) : Bool :=
  match o with
  | .next t => t.buf = buf && t.latch = latch && contracts t = answers
  | _ => false

/-- L2.5: NOP on `7B 41`. -/
theorem test_nop : shows (step ((inst .crc4 [0x7B, 0x41] false).withFetchWord 32 0x00000000)) [0x7B, 0x41] false [(.ok, 0, [])] = true := by decide
/-- L2.5: RESET on `7B 41 00`, latched. -/
theorem test_reset : shows (step ((inst .par1 [0x7B, 0x41, 0x00] true).withFetchWord 32 0x10000000)) [] false [(.ok, 0, [])] = true := by decide
/-- S1, row 4. -/
theorem test_rxb_completes_frame : shows (step ((inst .crc4 [0x7B, 0x41, 0x04] false).withFetchWord 32 0x20007D00)) [] false [(.frameReady, 0, [0x41])] = true := by decide +kernel
/-- S8a, row 5. -/
theorem test_rxb_recovers_corrupted_stop :
    shows (step ((inst .par2 [0x7B, 0x41, 0x00, 0x7E] false).withFetchWord 32 0x20007B00)) [0x7B] false [(.incomplete, 0, [])] = true := by decide
/-- S6, row 2. -/
theorem test_append : shows (step ((inst .crc4 [0x11] false).withFetchWord 32 0x30002200)) [0x11, 0x22] false [(.ok, 0, [])] = true := by decide
/-- R43: a full buffer is cleared before the append. -/
theorem test_append_overflow :
    shows (exec (.append 0x42) { inst .par2 [0x7B, 0x41, 0x00] true with cfg := { codec := .par2, maxBuf := .finite 3 } }) [0x42] true [(.ok, 0, [])] = true := by decide
/-- S12, row 9: the first of two frames. -/
theorem test_feed_one_frame :
    shows (step ((inst .crc4 [0x7B, 0x41, 0x04, 0x7D, 0x7B, 0x42, 0x01, 0x7D] false).withFetchWord 32 0x40000000)) [0x7B, 0x42, 0x01, 0x7D] false [(.frameReady, 0, [0x41])] = true := by decide +kernel
/-- S11b, row 4: an escaped literal before a START is verified, not recovered. -/
theorem test_feed_escaped_mismatch : shows (exec .feed (inst .par2 [0x7B, 0x5C, 0x41, 0x7B] false)) [] true [(.frameError, 0, [])] = true := by decide
/-- L2.3. -/
theorem test_txsof : shows (exec .txsof (inst .par1 [] true)) [] true [(.ok, 0, [0x7B])] = true := by decide
/-- L2.3: CRC4 does not escape 0x01. -/
theorem test_txd_plain : shows (exec (.txd 0x01) (inst .crc4 [] false)) [] false [(.ok, 0, [0x01, 0x03])] = true := by decide +kernel
/-- L2.3: parity escapes 0x01. -/
theorem test_txd_escaped : shows (exec (.txd 0x01) (inst .par2 [] false)) [] false [(.ok, 0, [0x5C, 0x01, 0x01])] = true := by decide
/-- L2.3. -/
theorem test_txeof : shows (exec .txeof (inst .crc4 [] false)) [] false [(.ok, 0, [0x7D])] = true := by decide
/-- L2.2. -/
theorem test_chk_crc4 : shows (exec (.chk 0x80) (inst .crc4 [] false)) [] false [(.ok, 0xE, [])] = true := by decide +kernel
/-- L2.2. -/
theorem test_chk_parity : shows (exec (.chk 0x80) (inst .par1 [] false)) [] false [(.ok, 0x1, [])] = true := by decide
/-- L2.2: one of the four undetected two-bit patterns. -/
theorem test_vfy_crc4 : shows (exec (.vfy 0x40 0x14) (inst .crc4 [] false)) [] false [(.ok, 1, [])] = true := by decide +kernel
/-- L2.2: the whole byte is compared. -/
theorem test_vfy_parity : shows (exec (.vfy 0x41 0x02) (inst .par2 [] false)) [] false [(.ok, 0, [])] = true := by decide
/-- L2.5. -/
theorem test_stat : shows (exec .stat (inst .par2 [] true)) [] true [(.ok, 0x00000005, [])] = true := by decide
/-- P4, row 10. -/
theorem test_stat_length :
    shows (exec .stat (inst .par1 [0x7B, 0x5C, 0x01, 0x01, 0x7D, 0x7B, 0x41, 0x00, 0x7D] false)) [0x7B, 0x5C, 0x01, 0x01, 0x7D, 0x7B, 0x41, 0x00, 0x7D] false [(.ok, 0x902, [])] = true := by decide
/-- L2.1. -/
theorem test_reservedB : shows (step ((inst .crc4 [0x7B, 0x41] false).withFetchWord 32 0xB0000000)) [0x7B, 0x41] false [(.illegal, 0, [])] = true := by decide
theorem test_reservedC : shows (exec (.reservedC 1) (inst .crc4 [0x7B] true)) [0x7B] true [(.illegal, 0, [])] = true := by decide
theorem test_reservedD : shows (exec (.reservedD 1) (inst .crc4 [0x7B] true)) [0x7B] true [(.illegal, 0, [])] = true := by decide
theorem test_reservedE : shows (exec (.reservedE 1) (inst .crc4 [0x7B] true)) [0x7B] true [(.illegal, 0, [])] = true := by decide
theorem test_reservedF : shows (exec (.reservedF 1) (inst .crc4 [0x7B] true)) [0x7B] true [(.illegal, 0, [])] = true := by decide
/-- P5, row 4: RSV = 0x001 is not taken as RXB. -/
theorem test_illegal_fields : shows (step ((inst .crc4 [0x7B, 0x41] false).withFetchWord 32 0x20010400)) [0x7B, 0x41] false [(.illegal, 0, [])] = true := by decide
/-- R68: the numbers of the diagnostics. -/
theorem test_diag_bits : (Diag.bits .checkMismatch, Diag.bits .stopCorrupted, Diag.bits .overflow) = (1, 2, 3) := by decide

/-- R69: an operand, a comment, a pseudo-instruction. -/
theorem test_assemble_vfy : assembleLine ['V', 'F', 'Y', ' ', '0', 'x', '4', '1', ',', ' ', '0', 'x', '0', '4', ' ', ';', 'x'] =
    some [.vfy 0x41 0x04] := by decide
theorem test_assemble_encode : assembleLine ['E', 'N', 'C', 'O', 'D', 'E', ' ', '0', 'x', '4', '1'] =
    some [.txsof, .txd 0x41, .txeof] := by decide

/-! ### The hypotheses of the statements can be met -/

theorem witness_EncodeOfDecode : decode 0x90004104 = .ok (.vfy 0x41 0x04) := by decide

/-- One word for each reason of R65, at a boundary of its range. -/
theorem witness_IllegalWordAnswersIllegal :
    0xB ≤ (fieldOp 0xB0000000).toNat ∧ 0xB ≤ (fieldOp 0xFFFFFFFF).toNat ∧ fieldRsv 0x20010000 ≠ 0 ∧
    (usesA (fieldOp 0xA0000100) = false ∧ fieldA 0xA0000100 ≠ 0) ∧
    (usesB (fieldOp 0x20007B01) = false ∧ fieldB 0x20007B01 ≠ 0) ∧
    (issueCommand State.reset 0x20007B01).commands = 0x20007B01 :: [] := by decide

theorem witness_StepRunsTheDecodedCommand :
    (issueCommand State.reset 0x20007B00).commands = 0x20007B00 :: [] ∧ decode 0x20007B00 = .ok (.rxb 0x7B) := by decide

theorem witness_StepWithNoCommandChangesNothing : State.reset.commands = [] := rfl

/-- A full buffer of one byte, about to receive another. -/
def fullOne : State :=
  { cfg := { codec := .par2, maxBuf := .finite 1 }, buf := [0x7B], latch := false, commands := [0x20004100], responses := [] }

theorem witness_StepKeepsInvariant : Inv fullOne ∧ ∃ t, step fullOne = .next t :=
  ⟨⟨rfl, Nat.le_refl 1⟩, _, rfl⟩

theorem witness_ResetMeetsInvariant : Config.wf { codec := .par1, maxBuf := .finite 1 } = true := by decide

theorem witness_LatchFollowsItsTable :
    (∃ t code value bytes, Answers (exec .feed (inst .par2 [] true)) t code value bytes) ∧
    (inst .crc4 [] true).cfg.codec ≠ .par2 ∧ (inst .crc4 [] true).latch = true ∧ Instr.feed ≠ .reset ∧
    ∃ t code value bytes, Answers (exec .feed (inst .crc4 [] true)) t code value bytes :=
  ⟨⟨_, _, _, _, feedBody_answers [] _⟩, by decide, rfl, by decide, _, _, _, _, feedBody_answers [] _⟩

theorem witness_LatchedInstanceDeliversNothing :
    (issueCommand (inst .crc4 [] true) 0x20007B00).cfg.codec ≠ .par2 ∧
    (issueCommand (inst .crc4 [] true) 0x20007B00).latch = true ∧
    ∀ w ∈ (issueCommand (inst .crc4 [] true) 0x20007B00).commands, w ≠ encode .reset :=
  ⟨by decide, rfl, fun w h => by rw [List.mem_singleton.mp h]; decide⟩

theorem witness_NopDoesNothing :
    (fieldOp 0x00010000 = 0x0 ∧ fieldRsv 0x00010000 ≠ 0) ∧ (fieldOp 0x00000100 = 0x0 ∧ fieldA 0x00000100 ≠ 0) ∧
    (fieldOp 0x00000001 = 0x0 ∧ fieldB 0x00000001 ≠ 0) := by decide

theorem witness_ResetEmptiesAndUnlatches :
    (inst .crc4 [0x7B] true).cfg.codec ≠ .par2 ∧ (inst .crc4 [0x7B] true).latch = true ∧
    (∃ t, exec .reset (inst .crc4 [0x7B] true) = .next t ∧ t.latch = false) ∧
    (inst .crc4 [] false).buf = [] ∧ (inst .crc4 [] false).latch = false :=
  ⟨by decide, rfl, ⟨_, rfl, rfl⟩, rfl, rfl⟩

theorem witness_StatReturnsTheStatusWord :
    (inst .par1 [0x7B] false).cfg.codec = .par1 ∧ (inst .par1 [0x7B] false).buf = [0x7B] ∧
    (inst .par1 [0x7B] false).latch = false := by decide

theorem witness_CrcVerifyAcceptsSixteenSyndromes : (0x00 : Byte).toNat < 16 ∧ (0x0F : Byte).toNat < 16 := by decide

theorem witness_CrcDetectsErrors :
    (0 < 8 ∧ 7 < 8) ∧ ((1 : BitVec 4) ≠ 0 ∧ 8 ≤ 8 ∧ crcdiv12 0x13 = 0) ∧ (popcount 0x08 + popcount 0x80 = 2) ∧
    popcount 0x03 + popcount 0x00 = 2 := by decide +kernel

theorem witness_ParityDetectsOddFlips : (Codec.par1 = .par1 ∨ Codec.par1 = .par2) ∧
    (Codec.par2 = .par1 ∨ Codec.par2 = .par2) ∧ 2 ≤ (0x02 : Byte).toNat ∧ 2 ≤ (0xFF : Byte).toNat := by decide

theorem witness_ParityIsOddBitCount : (Codec.par1 = .par1 ∨ Codec.par1 = .par2) ∧
    (Codec.par2 = .par1 ∨ Codec.par2 = .par2) := by decide

theorem witness_ChkReturnsTheCheckValue :
    (inst .crc4 [] false).cfg.codec = .crc4 ∧ (inst .par1 [] false).cfg.codec = .par1 := by decide

theorem witness_VfyReturnsValidity :
    (inst .crc4 [] false).cfg.codec = .crc4 ∧ (inst .par1 [] false).cfg.codec = .par1 ∧
    ∃ t, exec .feed (inst .crc4 [] false) = .next t ∧ (inst .crc4 [] false).latch = false ∧ t.latch = true :=
  ⟨rfl, rfl, _, rfl, rfl, rfl⟩

theorem witness_TxdEmitsByteAndCheckValue :
    (inst .crc4 [] false).cfg.codec = .crc4 ∧
    ((inst .par2 [] false).cfg.codec = .par1 ∨ (inst .par2 [] false).cfg.codec = .par2) := by decide

/-- The four places a tag can stand: the first index, an ESCAPE, an escaped data byte, the last index. -/
theorem witness_EncodedTagsAreEscaped :
    ((encodePayload .crc4 [0x7B])[0]? = some START ∧ isTag START = true) ∧
    ((encodePayload .crc4 [0x7B])[1]? = some ESCAPE ∧ isTag ESCAPE = true) ∧
    (encodePayload .crc4 [0x7B])[2]? = some 0x7B ∧ (encodePayload .crc4 [0x7B])[4]? = some STOP ∧
    isTag STOP = true := by decide

theorem witness_EncodeCommandsEmitTheFrame :
    ({ inst .crc4 [] false with commands := (pseudoEncode [0x41]).map encode ++ [0x00000000] } : State).commands =
      (pseudoEncode [0x41]).map encode ++ [0x00000000] := rfl

/-- Not full at one byte below the bound, full at the bound. -/
theorem witness_AppendAddsItsByte :
    ({ inst .crc4 [] false with cfg := { codec := .crc4, maxBuf := .finite 1 } } : State).cfg.maxBuf ≠ .finite ([] : List Byte).length ∧
    fullOne.cfg.maxBuf = .finite fullOne.buf.length ∧ (inst .crc4 [] false).buf = [] := by decide

theorem witness_LatchedFeedDecodesNothing :
    (inst .par1 [0x7B] true).cfg.codec ≠ .par2 ∧ (inst .par1 [0x7B] true).latch = true ∧
    (inst .par2 [0x7B] true).cfg.codec = .par2 ∧ Instr.stat ≠ .reset ∧
    ∃ t, exec .stat (inst .par1 [0x7B] true) = .next t :=
  ⟨by decide, rfl, rfl, by decide, _, rfl⟩

/-- No START: an empty buffer too. Garbage: none, and two bytes. -/
theorem witness_FeedSeeksTheFirstStart :
    (Unlatched (inst .crc4 [] false) ∧ START ∉ (inst .crc4 [] false).buf) ∧
    (Unlatched (inst .par2 [0x11] true) ∧ START ∉ (inst .par2 [0x11] true).buf) ∧
    (START ∉ ([] : List Byte) ∧ (inst .crc4 [0x7B] false).buf = [] ++ START :: []) ∧
    (START ∉ ([0x11, 0x7D] : List Byte) ∧ (inst .crc4 [0x11, 0x7D, 0x7B, 0x41] false).buf = [0x11, 0x7D] ++ START :: [0x41]) :=
  ⟨⟨.inl rfl, by decide⟩, ⟨.inr rfl, by decide⟩, by decide, by decide⟩

/-- One plain and one escaped pair of CRC-4: `41 04`, `5C 7B 06`. -/
theorem verified_sample : Verified .crc4 [0x41, 0x04, 0x5C, 0x7B, 0x06] [0x41, 0x7B] :=
  .plain 0x41 0x04 _ _ (by decide) (by decide +kernel) (.escaped 0x7B 0x06 _ _ (by decide +kernel) .none)

theorem witness_StopDeliversTheFrame :
    (Unlatched (inst .par2 [0x7B, 0x7D] true) ∧ Verified .par2 [] [] ∧
      (inst .par2 [0x7B, 0x7D] true).buf = START :: ([] ++ STOP :: [])) ∧
    (Unlatched (inst .crc4 [0x7B, 0x41, 0x04, 0x5C, 0x7B, 0x06, 0x7D, 0x11] false) ∧
      Verified .crc4 [0x41, 0x04, 0x5C, 0x7B, 0x06] [0x41, 0x7B] ∧
      (inst .crc4 [0x7B, 0x41, 0x04, 0x5C, 0x7B, 0x06, 0x7D, 0x11] false).buf =
        START :: ([0x41, 0x04, 0x5C, 0x7B, 0x06] ++ STOP :: [0x11])) :=
  ⟨⟨.inr rfl, .none, by decide⟩, .inl rfl, verified_sample, by decide⟩

theorem witness_MidFrameStartResynchronizes :
    Verified .crc4 [0x41, 0x04, 0x5C, 0x7B, 0x06] [0x41, 0x7B] ∧
    (inst .crc4 [0x7B, 0x41, 0x04, 0x5C, 0x7B, 0x06, 0x7B, 0x42] false).buf =
      START :: ([0x41, 0x04, 0x5C, 0x7B, 0x06] ++ START :: [0x42]) :=
  ⟨verified_sample, by decide⟩

theorem witness_ParTwoRecoversFromCorruptedStop :
    (inst .par2 [0x7B, 0x41, 0x00, 0x7E, 0x7B] false).cfg.codec = .par2 ∧ Verified .par2 [0x41, 0x00] [0x41] ∧
    isTag 0x7E = false ∧
    (inst .par2 [0x7B, 0x41, 0x00, 0x7E, 0x7B] false).buf = START :: ([0x41, 0x00] ++ 0x7E :: START :: []) :=
  ⟨rfl, .plain 0x41 0x00 _ _ (by decide) (by decide) .none, by decide, by decide⟩

/-- A plain pair that fails under CRC4, and an escaped one under PAR2 before more bytes. -/
theorem witness_CheckMismatchDiscardsTheFrame :
    (Unlatched (inst .crc4 [0x7B, 0x41, 0x05, 0x7D] false) ∧ Verified .crc4 [] [] ∧ FailingPair .crc4 [0x41, 0x05] ∧
      (inst .crc4 [0x7B, 0x41, 0x05, 0x7D] false).buf = START :: ([] ++ [0x41, 0x05] ++ [0x7D])) ∧
    (Unlatched (inst .par2 [0x7B, 0x5C, 0x41, 0x7B] true) ∧ FailingPair .par2 [ESCAPE, 0x41, START] ∧
      (inst .par2 [0x7B, 0x5C, 0x41, 0x7B] true).buf = START :: ([] ++ [ESCAPE, 0x41, START] ++ [])) :=
  ⟨⟨.inl rfl, .none, .plain 0x41 0x05 (by decide) (by decide +kernel) (by decide), by decide⟩,
    .inr rfl, .escaped 0x41 START (by decide), by decide⟩

theorem witness_CutFrameWaits :
    (Unlatched (inst .crc4 [0x7B] false) ∧ Verified .crc4 [] [] ∧ CutPair [] ∧
      (inst .crc4 [0x7B] false).buf = START :: ([] ++ [])) ∧
    (CutPair [0x41] ∧ (inst .crc4 [0x7B, 0x41] false).buf = START :: ([] ++ [0x41])) ∧
    (CutPair [ESCAPE] ∧ (inst .crc4 [0x7B, 0x5C] false).buf = START :: ([] ++ [ESCAPE])) ∧
    (CutPair [ESCAPE, 0x7D] ∧ (inst .crc4 [0x7B, 0x5C, 0x7D] false).buf = START :: ([] ++ [ESCAPE, 0x7D])) :=
  ⟨⟨.inl rfl, .none, .none, by decide⟩, ⟨.plain 0x41 (by decide), by decide⟩, ⟨.escape, by decide⟩,
    .escaped 0x7D, by decide⟩

theorem witness_FeedFollowsTheIndexedAlgorithm : (inst .crc4 [0x7B, 0x41] false).buf.length < 3 := by decide

theorem witness_FeedAfterIncompleteRepeats :
    Answers (exec .feed (inst .crc4 [0x11, 0x7B] false)) (inst .crc4 [0x7B] false) .incomplete 0 [] :=
  ⟨[], rfl⟩

theorem witness_RxbKeepsTheBufferSettled :
    Settled (inst .crc4 [] true) ∧ Settled (inst .par2 [0x7B, 0x41] true) :=
  ⟨.inl rfl, .inr ⟨[], rfl⟩⟩

/-- The empty payload under the smallest MAX_BUF that allows its frame. -/
theorem witness_RoundTripPerByte :
    ∃ s : State, s.buf = [] ∧ Unlatched s ∧ s.cfg.maxBuf.Admits (encodePayload s.cfg.codec []).length ∧
      s.commands = (pseudoRxseq (encodePayload s.cfg.codec [])).map encode ++ [] :=
  ⟨{ cfg := { codec := .par2, maxBuf := .finite 2 }, buf := [], latch := true,
     commands := (pseudoRxseq (encodePayload .par2 [])).map encode ++ [], responses := [] },
    rfl, .inr rfl, Nat.le_refl 2, rfl⟩

theorem witness_RoundTripBulkAfterGarbage :
    ∃ s : State, s.buf = [] ∧ Unlatched s ∧ START ∉ ([0x11] : List Byte) ∧
      s.cfg.maxBuf.Admits ([0x11] ++ encodePayload s.cfg.codec []).length ∧
      s.commands = (pseudoBulk ([0x11] ++ encodePayload s.cfg.codec [])).map encode ++ [] :=
  ⟨{ cfg := { codec := .crc4, maxBuf := .finite 3 }, buf := [], latch := false,
     commands := (pseudoBulk ([0x11] ++ encodePayload .crc4 [])).map encode ++ [], responses := [] },
    rfl, .inl rfl, by decide, Nat.le_refl 3, rfl⟩

theorem witness_GarbageByteLatchesPerByteDrive :
    (Unlatched (inst .crc4 [] false) ∧ START ∉ (inst .crc4 [] false).buf ∧ (0x7D : Byte) ≠ START) ∧
    (Unlatched (inst .par2 [0x11] true) ∧ START ∉ (inst .par2 [0x11] true).buf ∧ (0x7D : Byte) ≠ START) :=
  ⟨⟨.inl rfl, by decide, by decide⟩, .inr rfl, by decide, by decide⟩

theorem witness_AssemblerReadsRenderedCommands : Instr.wf (.vfy 0x41 0x04) = true := by decide

end Sys2Proof.Tests
end

section
/-! PROOFS. The step: the oldest waiting word is accepted, decoded and run (R9, R48, R51). -/

namespace Sys2Proof.Machine

/-- The framer accepts the oldest waiting word and leaves the younger ones on the port (R51). -/
theorem acceptCommand_of_commands_eq_cons {s : State} {w : Word} {rest : List Word}
    (waiting : s.commands = w :: rest) : acceptCommand s = some (w, { s with commands := rest }) := by
  simp only [acceptCommand, waiting]

/-- The step's command arm: an accepted word that decodes is run on the state it was accepted into. -/
theorem step_eq_exec {s accepted : State} {w : Word} {i : Instr}
    (accepts : acceptCommand s = some (w, accepted)) (decodes : decode w = .ok i) :
    step s = exec i accepted := by
  simp only [step, accepts, decodes]

/-- Settles O7: accepting the oldest word, then the step's command arm. -/
theorem stepRunsTheDecodedCommand : Obligations.StepRunsTheDecodedCommand := by
  intro s w rest i waiting decodes
  exact step_eq_exec (acceptCommand_of_commands_eq_cons waiting) decodes

end Sys2Proof.Machine
end

section
/-! PROOFS. What one FEED can end in (R143 to R154): each result with the latch it leaves, and the suffix of
the buffer that stays (R21). -/

namespace Sys2Proof.Machine

/-- What step 3 of R143 can end in, `frame` being the buffer from the current START on. What it leaves of
`frame` is a suffix, because bytes are dropped from the front only (R21). -/
inductive CollectOutcome (codec : Codec) (latch : Bool) (frame : List Byte) : FeedResult → Prop where
  | incomplete (left : List Byte) (diags : List Diag) (kept : left <:+ frame) :
      CollectOutcome codec latch frame (feedIncomplete latch left diags)
  | ready (data left : List Byte) (diags : List Diag) (kept : left <:+ frame) :
      CollectOutcome codec latch frame (feedReady latch data left diags)
  | mismatch (left : List Byte) (diags : List Diag) (kept : left <:+ frame) :
      CollectOutcome codec latch frame (feedMismatch codec latch left diags)

/-- A frame restarted further right leaves a suffix of the earlier frame too. -/
theorem CollectOutcome.widen {codec : Codec} {latch : Bool} {frame wider : List Byte} {r : FeedResult}
    (outcome : CollectOutcome codec latch frame r) (within : frame <:+ wider) :
    CollectOutcome codec latch wider r := by
  cases outcome with
  | incomplete left diags kept => exact .incomplete left diags (kept.trans within)
  | ready data left diags kept => exact .ready data left diags (kept.trans within)
  | mismatch left diags kept => exact .mismatch left diags (kept.trans within)

/-- What stands behind two bytes of a suffix is a suffix. -/
theorem suffix_of_cons_cons {x y : Byte} {rest frame : List Byte} (within : x :: y :: rest <:+ frame) :
    rest <:+ frame :=
  ((List.suffix_cons y rest).trans (List.suffix_cons x _)).trans within

/-- Step 3 ends in one of its outcomes, by induction over its turns: the bytes still to be scanned stay a
suffix of the current frame. -/
theorem collect_outcome (codec : Codec) (latch : Bool) (frame data : List Byte) (diags : List Diag)
    (scan : List Byte) (within : scan <:+ frame) :
    CollectOutcome codec latch frame (collect codec latch frame data diags scan) := by
  fun_induction collect codec latch frame data diags scan
  -- The buffer ends, or a pair is cut short (R149, R152, R154).
  case case1 | case4 | case10 => exact .incomplete _ _ (List.suffix_refl _)
  -- An escaped pair (R149, R151).
  case case2 _ ih => exact ih (suffix_of_cons_cons ((List.suffix_cons ..).trans within))
  case case3 => exact .mismatch _ _ (suffix_of_cons_cons ((List.suffix_cons ..).trans within))
  -- STOP (R148).
  case case5 => exact .ready _ _ _ ((List.suffix_cons ..).trans within)
  -- START (R150): the frame restarts.
  case case6 ih => exact (ih (List.suffix_cons ..)).widen within
  -- A plain literal before a START under PAR2 (R153): the frame restarts.
  case case7 ih => exact (ih (List.suffix_cons ..)).widen ((List.suffix_cons ..).trans within)
  -- A plain pair (R151, R152).
  case case8 ih => exact ih (suffix_of_cons_cons within)
  case case9 => exact .mismatch _ _ (suffix_of_cons_cons within)

/-- What FEED-body can end in from a codec, a buffer and a latch (R143). -/
inductive FeedOutcome (codec : Codec) (buf : List Byte) (latch : Bool) : FeedResult → Prop where
  | latched (keeps : codec ≠ .par2) (set : latch = true) :
      FeedOutcome codec buf latch { code := .latched, bytes := [], buf := [], latch := true, diags := [] }
  | noStart (clear : latchAtFeed codec latch = false) (none : START ∉ buf) :
      FeedOutcome codec buf latch
        { code := .noStart, bytes := [], buf := [], latch := latchOnNoStart codec false, diags := [] }
  | collected (clear : latchAtFeed codec latch = false) {r : FeedResult}
      (outcome : CollectOutcome codec false buf r) : FeedOutcome codec buf latch r

/-- Only a set CRC4 or PAR1 latch is still set after step 1 of FEED (R144). -/
theorem latchAtFeed_eq_true {codec : Codec} {latch : Bool} :
    latchAtFeed codec latch = true ↔ codec ≠ .par2 ∧ latch = true := by
  cases codec <;> simp [latchAtFeed]

theorem feedResult_outcome (codec : Codec) (buf : List Byte) (latch : Bool) :
    FeedOutcome codec buf latch (feedResult codec buf latch) := by
  by_cases set : latchAtFeed codec latch = true
  · obtain ⟨keeps, rfl⟩ := latchAtFeed_eq_true.mp set
    rw [feedResult_latched keeps]
    exact .latched keeps rfl
  · have clear : latchAtFeed codec latch = false := Bool.eq_false_iff.mpr set
    by_cases found : START ∈ buf
    · obtain ⟨garbage, rest, rfl, none⟩ := List.eq_append_cons_of_mem found
      rw [feedResult_start clear none]
      have collected := collect_outcome codec false (START :: rest) [] [] rest (List.suffix_cons ..)
      exact .collected clear (collected.widen (List.suffix_append ..))
    · rw [feedResult_noStart clear found]
      exact .noStart clear found

/-- FEED drops bytes from the buffer's front only (R21, R29). -/
theorem FeedOutcome.buf_suffix {codec : Codec} {buf : List Byte} {latch : Bool} {r : FeedResult}
    (outcome : FeedOutcome codec buf latch r) : r.buf <:+ buf := by
  cases outcome with
  | latched | noStart => exact List.nil_suffix
  | collected _ outcome =>
    cases outcome with
    | incomplete _ _ kept | ready _ _ _ kept => exact kept
    | mismatch left _ kept =>
      show (if codec = .par2 then left else []) <:+ buf
      split
      · exact kept
      · exact List.nil_suffix

end Sys2Proof.Machine
end

section
/-! PROOFS. What each command leaves in the buffer and the latch, said once for all sixteen (R20 to R22). -/

namespace Sys2Proof.Machine

/-- The commands that run FEED-body, with the state they run it on: FEED, and RXB after its append (R141,
R142). -/
inductive RunsFeed (s : State) : Instr → State → Prop where
  | feed : RunsFeed s .feed s
  | rxb (a : Byte) : RunsFeed s (.rxb a) (bufAppend s a)

/-- What a command can do to the state, and the codes it can answer with. -/
inductive Effect (s : State) : Instr → State → ResultCode → Prop where
  | reset : Effect s .reset { s with buf := [], latch := false } .ok
  | append (a : Byte) : Effect s (.append a) (bufAppend s a) .ok
  | feed {i : Instr} {u : State} {r : FeedResult} (runs : RunsFeed s i u)
      (outcome : FeedOutcome u.cfg.codec u.buf u.latch r) :
      Effect s i { u with buf := r.buf, latch := r.latch } r.code
  | unchanged {i : Instr} {code : ResultCode} (keeps : i ≠ .reset) (plain : code = .ok ∨ code = .illegal) :
      Effect s i s code

/-- R30, R181. -/
theorem execReset_answers (s : State) :
    Answers (exec .reset s) { s with buf := [], latch := false } .ok 0 [] :=
  answer_answers ((s.setBuf []).setLatch false) _ _ _ _

/-- R140. -/
theorem execAppend_answers (s : State) (a : Byte) : Answers (exec (.append a) s) (bufAppend s a) .ok 0 [] :=
  answer_answers (bufAppend s a) _ _ _ _

/-- R182. -/
theorem execStat_answers (s : State) : Answers (exec .stat s) s .ok (statusWord s) [] :=
  answer_answers s _ _ _ _

/-- Every command answers, and has one of the effects. -/
theorem exec_effect (i : Instr) (s : State) :
    ∃ t code value bytes, Answers (exec i s) t code value bytes ∧ Effect s i t code := by
  cases i with
  | reset => exact ⟨_, _, _, _, execReset_answers s, .reset⟩
  | append a => exact ⟨_, _, _, _, execAppend_answers s a, .append a⟩
  | feed => exact ⟨_, _, _, _, feedBody_answers _ s, .feed .feed (feedResult_outcome ..)⟩
  | rxb a => exact ⟨_, _, _, _, feedBody_answers _ (bufAppend s a), .feed (.rxb a) (feedResult_outcome ..)⟩
  | nop | txsof | txd | txeof | chk | vfy | stat =>
    exact ⟨_, _, _, _, answer_answers s .ok _ _ _, .unchanged nofun (.inl rfl)⟩
  | reservedB | reservedC | reservedD | reservedE | reservedF =>
    exact ⟨_, _, _, _, answerIllegal_answers s, .unchanged nofun (.inr rfl)⟩

/-- An answer tells the command's effect: it fixes the state and the code. -/
theorem Answers.effect {i : Instr} {s t : State} {code : ResultCode} {value : Word} {bytes : List Byte}
    (answers : Answers (exec i s) t code value bytes) : Effect s i t code := by
  obtain ⟨t', code', value', bytes', answers', effect⟩ := exec_effect i s
  obtain ⟨rfl, rfl, -, -⟩ := answers.contract_unique answers'
  exact effect

/-- Settles O11: the fields of power-on, and RESET's answer. -/
theorem resetStateIsEmptyAndUnlatched : Obligations.ResetStateIsEmptyAndUnlatched :=
  ⟨fun cfg => ⟨State.powerOn_buf cfg, State.powerOn_latch cfg, State.powerOn_cfg cfg⟩,
    State.powerOn_buf _, State.powerOn_latch _, execReset_answers⟩

end Sys2Proof.Machine
end

section
/-! PROOFS. The invariant of a run: every command keeps it, and so does every step (R10, R21). -/

namespace Sys2Proof.Machine

/-- A shorter buffer is admitted where a longer one is. -/
theorem admits_mono {m : MaxBuf} {n k : Nat} (fits : m.Admits n) (le : k ≤ n) : m.Admits k := by
  cases m with
  | unbounded => trivial
  | finite limit => exact Nat.le_trans le fits

theorem Inv.bufAppend {s : State} (inv : Inv s) (b : Byte) : Inv (bufAppend s b) := by
  obtain ⟨legal, fits⟩ := inv
  exact ⟨legal, appended_admitted b legal fits⟩

/-- A state with the same parameters and no longer buffer keeps the invariant. -/
theorem Inv.of_buf_le {s t : State} (inv : Inv s) (cfg : t.cfg = s.cfg) (le : t.buf.length ≤ s.buf.length) :
    Inv t := by
  obtain ⟨legal, fits⟩ := inv
  unfold Inv
  rw [cfg]
  exact ⟨legal, admits_mono fits le⟩

theorem RunsFeed.keeps_inv {s u : State} {i : Instr} (runs : RunsFeed s i u) (inv : Inv s) : Inv u := by
  cases runs with
  | feed => exact inv
  | rxb a => exact inv.bufAppend a

theorem Effect.keeps_inv {s t : State} {i : Instr} {code : ResultCode} (effect : Effect s i t code)
    (inv : Inv s) : Inv t := by
  cases effect with
  | reset => exact inv.of_buf_le rfl (Nat.zero_le _)
  | append a => exact inv.bufAppend a
  | feed runs outcome => exact (runs.keeps_inv inv).of_buf_le rfl outcome.buf_suffix.length_le
  | unchanged => exact inv

/-- An answer keeps the invariant where its state before the response has it: the ports do not enter. -/
theorem Answers.inv_next {o : Host.Outcome State Fault Refusal} {t u : State} {code : ResultCode}
    {value : Word} {bytes : List Byte} (answers : Answers o t code value bytes) (next : o = .next u)
    (inv : Inv t) : Inv u := by
  obtain ⟨diags, rfl⟩ := answers
  cases next
  exact inv.of_buf_le rfl (Nat.le_refl _)

theorem exec_keeps_inv {i : Instr} {s t : State} (inv : Inv s) (next : exec i s = .next t) : Inv t := by
  obtain ⟨u, code, value, bytes, answers, effect⟩ := exec_effect i s
  exact answers.inv_next next (effect.keeps_inv inv)

/-- What a step can be: nothing while no command waits, else the command of the oldest waiting word, or the
answer ILLEGAL to a word the decoder refuses (R51, R65). -/
theorem step_cases (s : State) :
    (s.commands = [] ∧ step s = .next s) ∨
      ∃ w rest, s.commands = w :: rest ∧
        ((∃ i, decode w = .ok i ∧ step s = exec i { s with commands := rest }) ∨
          ∃ e, decode w = .error e ∧ step s = answerIllegal { s with commands := rest }) := by
  obtain ⟨empty, accepts⟩ | ⟨w, rest, waiting, accepts⟩ := acceptCommand_cases s
  · exact .inl ⟨empty, by simp only [step, accepts]⟩
  · refine .inr ⟨w, rest, waiting, ?_⟩
    cases decodes : decode w with
    | ok i => exact .inl ⟨i, rfl, step_eq_exec accepts decodes⟩
    | error e => exact .inr ⟨e, rfl, by simp only [step, accepts, decodes]⟩

/-- Settles O12: the invariant does not read the ports, and every command keeps it. -/
theorem stepKeepsInvariant : Obligations.StepKeepsInvariant := by
  intro s t inv next
  obtain ⟨-, idle⟩ | ⟨w, rest, -, ⟨i, -, runs⟩ | ⟨e, -, refuses⟩⟩ := step_cases s
  · rw [idle] at next
    cases next
    exact inv
  · have accepted : Inv { s with commands := rest } := inv
    exact exec_keeps_inv accepted (runs ▸ next)
  · have accepted : Inv { s with commands := rest } := inv
    exact (answerIllegal_answers _).inv_next (refuses ▸ next) accepted

end Sys2Proof.Machine
end

section
/-! PROOFS. The error latch after each command (R22). -/

namespace Sys2Proof.Machine

theorem latchOnNoStart_false (codec : Codec) : latchOnNoStart codec false = decide (codec ≠ .par2) := by
  cases codec <;> rfl

theorem RunsFeed.cfg_eq {s u : State} {i : Instr} (runs : RunsFeed s i u) : u.cfg = s.cfg := by
  cases runs <;> rfl

theorem RunsFeed.latch_eq {s u : State} {i : Instr} (runs : RunsFeed s i u) : u.latch = s.latch := by
  cases runs <;> rfl

/-- A FEED keeps a set CRC4 or PAR1 latch (R144). -/
theorem FeedOutcome.latch_stays {codec : Codec} {buf : List Byte} {latch : Bool} {r : FeedResult}
    (outcome : FeedOutcome codec buf latch r) (keeps : codec ≠ .par2) (set : latch = true) :
    r.latch = true := by
  have unclear : latchAtFeed codec latch = true := latchAtFeed_eq_true.mpr ⟨keeps, set⟩
  cases outcome with
  | latched => rfl
  | noStart clear | collected clear => exact absurd (unclear.symm.trans clear) Bool.noConfusion

/-- Under CRC4 and PAR1 only RESET clears a set latch (R22). -/
theorem Effect.latch_stays {s t : State} {i : Instr} {code : ResultCode} (effect : Effect s i t code)
    (keeps : s.cfg.codec ≠ .par2) (set : s.latch = true) (noReset : i ≠ .reset) : t.latch = true := by
  cases effect with
  | reset => exact absurd rfl noReset
  | append | unchanged => exact set
  | feed runs outcome => exact outcome.latch_stays (runs.cfg_eq ▸ keeps) (runs.latch_eq.trans set)

/-- Settles O14: the latch of each effect, and the latch that only RESET clears. -/
theorem latchFollowsItsTable : Obligations.LatchFollowsItsTable := by
  intro i s t code value bytes answers
  have effect := answers.effect
  refine ⟨?_, effect.latch_stays⟩
  cases effect with
  | reset => rfl
  | append => rfl
  | feed runs outcome =>
    cases outcome with
    | latched => rfl
    | noStart => rw [← runs.cfg_eq]; exact latchOnNoStart_false _
    | collected _ outcome => cases outcome <;> rfl
  | unchanged keeps plain => obtain rfl | rfl := plain <;> exact (if_neg keeps).symm

end Sys2Proof.Machine
end

section
/-! PROOFS. The status word's fields (R26, R182), read off its value as a number. -/

namespace Sys2Proof.Machine

section StatusWord

variable (s : State)

theorem bufLen_le (buf : List Byte) : bufLen buf ≤ 0xFFFFFF := Nat.min_le_right ..

theorem codecId_lt (codec : Codec) : codecId codec < 3 := by cases codec <;> decide

/-- The fields do not overlap, so the status word is their sum. -/
theorem statusWord_toNat :
    (statusWord s).toNat = bufLen s.buf * 2 ^ 8 + codecId s.cfg.codec * 2 + s.latch.toNat := by
  have length := bufLen_le s.buf
  have codec := codecId_lt s.cfg.codec
  have latch := Bool.toNat_lt s.latch
  have low : codecId s.cfg.codec <<< 1 ||| s.latch.toNat = codecId s.cfg.codec * 2 + s.latch.toNat := by
    rw [← Nat.shiftLeft_add_eq_or_of_lt (by omega), Nat.shiftLeft_eq]
  unfold statusWord
  rw [Nat.or_assoc, low, ← Nat.shiftLeft_add_eq_or_of_lt (by omega), Nat.shiftLeft_eq, BitVec.toNat_ofNat]
  omega

/-- Any field of the status word, as a number. -/
theorem statusWord_field_toNat (start len : Nat) :
    ((statusWord s).extractLsb' start len).toNat =
      (bufLen s.buf * 2 ^ 8 + codecId s.cfg.codec * 2 + s.latch.toNat) / 2 ^ start % 2 ^ len := by
  rw [BitVec.extractLsb'_toNat, statusWord_toNat, Nat.shiftRight_eq_div_pow]

/-- LATCH, bit 0. -/
theorem statusWord_latch : (statusWord s).getLsbD 0 = s.latch := by
  have latch := Bool.toNat_lt s.latch
  have parity : (bufLen s.buf * 2 ^ 8 + codecId s.cfg.codec * 2 + s.latch.toNat) % 2 = s.latch.toNat := by omega
  rw [← BitVec.testBit_toNat, statusWord_toNat, Nat.testBit_zero, parity]
  cases s.latch <;> rfl

/-- CODEC, bits 2:1. -/
theorem statusWord_codec : (statusWord s).extractLsb' 1 2 = BitVec.ofNat 2 (codecId s.cfg.codec) := by
  have latch := Bool.toNat_lt s.latch
  apply BitVec.eq_of_toNat_eq
  rw [statusWord_field_toNat, BitVec.toNat_ofNat]
  omega

/-- Bits 7:3 are reserved. -/
theorem statusWord_reserved : (statusWord s).extractLsb' 3 5 = 0 := by
  have codec := codecId_lt s.cfg.codec
  have latch := Bool.toNat_lt s.latch
  apply BitVec.eq_of_toNat_eq
  rw [statusWord_field_toNat]
  show _ = 0
  omega

/-- BUFLEN, bits 31:8. -/
theorem statusWord_bufLen : ((statusWord s).extractLsb' 8 24).toNat = min s.buf.length 0xFFFFFF := by
  have length := bufLen_le s.buf
  have codec := codecId_lt s.cfg.codec
  have latch := Bool.toNat_lt s.latch
  rw [statusWord_field_toNat]
  show _ = bufLen s.buf
  omega

end StatusWord

/-- Settles O18: STAT answers the status word, whose fields the lemmas above give. -/
theorem statReturnsTheStatusWord : Obligations.StatReturnsTheStatusWord := by
  refine ⟨fun s => ⟨statusWord s, execStat_answers s, statusWord_latch s, ?_, statusWord_reserved s,
    statusWord_bufLen s⟩, by decide, fun s codec buf latch => ?_⟩
  · rw [statusWord_codec]
    cases s.cfg.codec <;> rfl
  · have word : statusWord s = 0x00000102 := by rw [statusWord, codec, buf, latch]; decide
    exact word ▸ execStat_answers s

end Sys2Proof.Machine
end

section
/-! PROOFS. The decoder's rules and the round trip of command words (R62 to R65, R72). -/

namespace Sys2Proof.Machine

section Checks

variable (w : Word) (j : Instr)

theorem decodeNone_eq_ok (i : Instr) :
    decodeNone w i = .ok j ↔ i = j ∧ fieldRsv w = 0 ∧ fieldA w = 0 ∧ fieldB w = 0 := by
  unfold decodeNone
  split_ifs <;> simp_all

theorem decodeA_eq_ok (i : Byte → Instr) :
    decodeA w i = .ok j ↔ i (fieldA w) = j ∧ fieldRsv w = 0 ∧ fieldB w = 0 := by
  unfold decodeA
  split_ifs <;> simp_all

theorem decodeAB_eq_ok (i : Byte → Byte → Instr) :
    decodeAB w i = .ok j ↔ i (fieldA w) (fieldB w) = j ∧ fieldRsv w = 0 := by
  unfold decodeAB
  split_ifs <;> simp_all

end Checks

/-- What the decoder can answer to `w`, by the operands that the opcode uses (R63, R64), or the row of a
reserved opcode (R65); each with what the encoder and the legality checks say of the commands read. -/
inductive DecodeRule (w : Word) : Except IllegalWord Instr → Prop where
  | plain {op : BitVec 4} {i : Instr} (word : encode i = mkWord op 0 0 0) (opcode : (fieldOp w).toNat = op.toNat)
      (legal : i.wf = true) (assigned : op.toNat ≤ 0xA) (noA : usesA op = false) (noB : usesB op = false) :
      DecodeRule w (decodeNone w i)
  | oneOperand {op : BitVec 4} {i : Byte → Instr} (word : ∀ a, encode (i a) = mkWord op 0 a 0)
      (opcode : (fieldOp w).toNat = op.toNat) (legal : ∀ a, (i a).wf = true) (assigned : op.toNat ≤ 0xA)
      (readsA : usesA op = true) (noB : usesB op = false) : DecodeRule w (decodeA w i)
  | twoOperands {op : BitVec 4} {i : Byte → Byte → Instr} (word : ∀ a b, encode (i a b) = mkWord op 0 a b)
      (opcode : (fieldOp w).toNat = op.toNat) (legal : ∀ a b, (i a b).wf = true) (assigned : op.toNat ≤ 0xA)
      (readsA : usesA op = true) (readsB : usesB op = true) : DecodeRule w (decodeAB w i)
  | reserved {op : BitVec 4} {i : BitVec 28 → Instr} (word : ∀ low, encode (i low) = mkReservedWord op low)
      (opcode : (fieldOp w).toNat = op.toNat) (illegal : ∀ low, (i low).wf = false) (unassigned : 0xB ≤ op.toNat) :
      DecodeRule w (.ok (i (fieldLow w)))

/-- The sixteen opcodes follow the four rules (R63). -/
theorem decode_rule (w : Word) : DecodeRule w (decode w) := by
  unfold decode
  split
  -- NOP, RESET, FEED, TXSOF, TXEOF, STAT: no operand.
  case h_1 opcode | h_2 opcode | h_5 opcode | h_6 opcode | h_8 opcode | h_11 opcode =>
    exact .plain rfl opcode rfl (by decide) rfl rfl
  -- RXB, APPEND, TXD, CHK: operand A.
  case h_3 opcode | h_4 opcode | h_7 opcode | h_9 opcode =>
    exact .oneOperand (fun _ => rfl) opcode (fun _ => rfl) (by decide) rfl rfl
  -- VFY: operands A and B.
  case h_10 opcode => exact .twoOperands (fun _ _ => rfl) opcode (fun _ _ => rfl) (by decide) rfl rfl
  -- The reserved opcodes 0xB to 0xE, and 0xF as all that four bits leave.
  case h_12 opcode | h_13 opcode | h_14 opcode | h_15 opcode =>
    exact .reserved (fun _ => rfl) opcode (fun _ => rfl) (by decide)
  case h_16 =>
    have last : (fieldOp w).toNat = 0xF := by grind [(fieldOp w).isLt]
    exact .reserved (fun _ => rfl) last (fun _ => rfl) (by decide)

/-- The fields of a word fix it. -/
theorem mkWord_eq {w : Word} {op : BitVec 4} {rsv : BitVec 12} {a b : Byte} (opcode : (fieldOp w).toNat = op.toNat)
    (rsv_eq : fieldRsv w = rsv) (a_eq : fieldA w = a) (b_eq : fieldB w = b) : mkWord op rsv a b = w := by
  subst rsv_eq a_eq b_eq
  rw [← BitVec.eq_of_toNat_eq opcode, mkWord_fields]

theorem DecodeRule.encode_eq {w : Word} {i : Instr} (rule : DecodeRule w (.ok i)) : encode i = w := by
  generalize decodes : Except.ok i = d at rule
  cases rule with
  | plain word opcode =>
    obtain ⟨rfl, rsv, a, b⟩ := (decodeNone_eq_ok ..).mp decodes.symm
    exact word.trans (mkWord_eq opcode rsv a b)
  | oneOperand word opcode =>
    obtain ⟨rfl, rsv, b⟩ := (decodeA_eq_ok ..).mp decodes.symm
    exact (word _).trans (mkWord_eq opcode rsv rfl b)
  | twoOperands word opcode =>
    obtain ⟨rfl, rsv⟩ := (decodeAB_eq_ok ..).mp decodes.symm
    exact (word _ _).trans (mkWord_eq opcode rsv rfl rfl)
  | reserved word opcode =>
    cases decodes
    rw [word, ← BitVec.eq_of_toNat_eq opcode, mkReservedWord_fields]

/-- Settles O3: in each of the decoder's rules the encoder puts the word's own fields together. -/
theorem encodeOfDecode : Obligations.EncodeOfDecode := by
  intro w i decodes
  exact (decodes ▸ decode_rule w).encode_eq

/-- A word with the opcode alone is read as a command without operands. -/
theorem decodeNone_mkWord (op : BitVec 4) (i : Instr) : decodeNone (mkWord op 0 0 0) i = .ok i := by
  simp [decodeNone_eq_ok]

theorem decodeA_mkWord (op : BitVec 4) (a : Byte) (i : Byte → Instr) : decodeA (mkWord op 0 a 0) i = .ok (i a) := by
  simp [decodeA_eq_ok]

theorem decodeAB_mkWord (op : BitVec 4) (a b : Byte) (i : Byte → Byte → Instr) :
    decodeAB (mkWord op 0 a b) i = .ok (i a b) := by
  simp [decodeAB_eq_ok]

/-- Settles O2: the opcode selects the command's own rule, and that rule reads back the operands. -/
theorem decodeOfEncode : Obligations.DecodeOfEncode := by
  intro i
  cases i with
  | nop | reset | feed | txsof | txeof | stat => exact decodeNone_mkWord _ _
  | rxb | append | txd | chk =>
    simp only [encode, decode, fieldOp_mkWord]
    exact decodeA_mkWord ..
  | vfy a b =>
    simp only [encode, decode, fieldOp_mkWord]
    exact decodeAB_mkWord ..
  | reservedB | reservedC | reservedD | reservedE | reservedF =>
    simp [encode, decode]

end Sys2Proof.Machine
end

section
/-! PROOFS. Which command words are legal: the field check, the opcode table and the decoder agree, and
every other word is answered ILLEGAL (R64, R65, R72). -/

namespace Sys2Proof.Machine

theorem wordWellFormed_iff (w : Word) :
    wordWellFormed w = true ↔ (fieldOp w).toNat ≤ 0xA ∧ fieldRsv w = 0 ∧
      (usesA (fieldOp w) = true ∨ fieldA w = 0) ∧ (usesB (fieldOp w) = true ∨ fieldB w = 0) := by
  simp [wordWellFormed]

/-! ### The decoder -/

/-- The words that decode to a command of an assigned opcode are those that pass the field check. -/
theorem DecodeRule.legal_iff {w : Word} {d : Except IllegalWord Instr} (rule : DecodeRule w d) :
    (∃ i, d = .ok i ∧ i.wf = true) ↔ wordWellFormed w = true := by
  rw [wordWellFormed_iff]
  cases rule with
  | plain _ opcode legal assigned noA noB =>
    rw [BitVec.eq_of_toNat_eq opcode]
    simp [decodeNone_eq_ok, legal, assigned, noA, noB]
  | oneOperand _ opcode legal assigned readsA noB =>
    rw [BitVec.eq_of_toNat_eq opcode]
    simp [decodeA_eq_ok, legal, assigned, readsA, noB]
  | twoOperands _ opcode legal assigned readsA readsB =>
    rw [BitVec.eq_of_toNat_eq opcode]
    simp [decodeAB_eq_ok, legal, assigned, readsA, readsB]
  | reserved _ opcode illegal unassigned =>
    have unassigned_op : ¬(fieldOp w).toNat ≤ 0xA := by omega
    simp [illegal, unassigned_op]

/-- The words that decode to a reserved opcode are those with an opcode from 0xB on. -/
theorem DecodeRule.illegal_iff {w : Word} {d : Except IllegalWord Instr} (rule : DecodeRule w d) :
    (∃ i, d = .ok i ∧ i.wf = false) ↔ 0xB ≤ (fieldOp w).toNat := by
  cases rule with
  | plain _ opcode legal assigned =>
    have assigned_op : ¬0xB ≤ (fieldOp w).toNat := by omega
    simp [decodeNone_eq_ok, legal, assigned_op]
  | oneOperand _ opcode legal assigned =>
    have assigned_op : ¬0xB ≤ (fieldOp w).toNat := by omega
    simp [decodeA_eq_ok, legal, assigned_op]
  | twoOperands _ opcode legal assigned =>
    have assigned_op : ¬0xB ≤ (fieldOp w).toNat := by omega
    simp [decodeAB_eq_ok, legal, assigned_op]
  | reserved _ opcode illegal unassigned =>
    have unassigned_op : 0xB ≤ (fieldOp w).toNat := by omega
    simp [illegal, unassigned_op]

/-! ### The opcode table -/

/-- The mask of an assigned opcode's row: it leaves free the operands that the opcode uses. -/
def rowMask (op : BitVec 4) : Word :=
  mkWord 0xF 0xFFF (if usesA op then 0 else 0xFF) (if usesB op then 0 else 0xFF)

/-- The command rows are the rows of the opcodes 0x0 to 0xA, in order. -/
theorem commandRows_eq :
    commandRows.map (fun row => (row.pattern, row.mask)) =
      (List.range 11).map fun n => (mkWord (BitVec.ofNat 4 n) 0 0 0, rowMask (BitVec.ofNat 4 n)) := by
  decide

/-- The reserved rows are the rows of the opcodes 0xB to 0xF, in order. -/
theorem reservedRows_eq :
    reservedRows.map (fun row => (row.pattern, row.mask)) =
      (List.range' 11 5).map fun n => (mkWord (BitVec.ofNat 4 n) 0 0 0, mkWord 0xF 0 0 0) := by
  decide

theorem mkWord_and (op op' : BitVec 4) (rsv rsv' : BitVec 12) (a a' b b' : Byte) :
    mkWord op rsv a b &&& mkWord op' rsv' a' b' = mkWord (op &&& op') (rsv &&& rsv') (a &&& a') (b &&& b') := by
  apply BitVec.eq_of_getLsbD_eq
  intro i hi
  simp only [BitVec.getLsbD_and, getLsbD_mkWord]
  split_ifs <;> rfl

theorem mkWord_inj {op op' : BitVec 4} {rsv rsv' : BitVec 12} {a a' b b' : Byte} :
    mkWord op rsv a b = mkWord op' rsv' a' b' ↔ op = op' ∧ rsv = rsv' ∧ a = a' ∧ b = b' := by
  constructor
  · intro same
    refine ⟨?_, ?_, ?_, ?_⟩
    · simpa using congrArg fieldOp same
    · simpa using congrArg fieldRsv same
    · simpa using congrArg fieldA same
    · simpa using congrArg fieldB same
  · rintro ⟨rfl, rfl, rfl, rfl⟩
    rfl

/-- A mask acts on each field by itself. -/
theorem and_mkWord_eq_iff (w : Word) (op op' : BitVec 4) (rsv rsv' : BitVec 12) (a a' b b' : Byte) :
    w &&& mkWord op rsv a b = mkWord op' rsv' a' b' ↔
      fieldOp w &&& op = op' ∧ fieldRsv w &&& rsv = rsv' ∧ fieldA w &&& a = a' ∧ fieldB w &&& b = b' := by
  rw [← mkWord_inj, ← mkWord_and, mkWord_fields]

/-- A mask over a whole operand field asks that it be zero, unless the opcode uses it. -/
theorem operand_masked_iff (uses : Bool) (x : Byte) :
    x &&& (if uses then 0 else 0xFF) = 0 ↔ uses = true ∨ x = 0 := by
  have whole : x &&& 0xFF = x := BitVec.and_allOnes
  cases uses with
  | false =>
    rw [if_neg Bool.false_ne_true, whole]
    exact (or_iff_right Bool.false_ne_true).symm
  | true => simp

theorem fieldOp_masked (w : Word) : fieldOp w &&& 0xF = fieldOp w := BitVec.and_allOnes

/-- A command row asks for its opcode, for RSV = 0, and for zero in the operand fields not used (R64). -/
theorem and_rowMask_eq_iff (w : Word) (op : BitVec 4) :
    w &&& rowMask op = mkWord op 0 0 0 ↔ fieldOp w = op ∧ fieldRsv w = 0 ∧
      (usesA op = true ∨ fieldA w = 0) ∧ (usesB op = true ∨ fieldB w = 0) := by
  have whole_rsv : fieldRsv w &&& 0xFFF = fieldRsv w := BitVec.and_allOnes
  rw [rowMask, and_mkWord_eq_iff, fieldOp_masked, whole_rsv, operand_masked_iff, operand_masked_iff]

/-- A reserved row asks for its opcode alone (R65). -/
theorem and_opMask_eq_iff (w : Word) (op : BitVec 4) :
    w &&& mkWord 0xF 0 0 0 = mkWord op 0 0 0 ↔ fieldOp w = op := by
  rw [and_mkWord_eq_iff, fieldOp_masked]
  simp

/-- Lying in one of some rows is a matter of the rows' patterns and masks alone. -/
theorem exists_row_iff {rows : List OpcodeRow} {opcodes : List Nat} {cell : Nat → Word × Word}
    (table : rows.map (fun row => (row.pattern, row.mask)) = opcodes.map cell) (w : Word) :
    (∃ row ∈ rows, row.matches w = true) ↔ ∃ n ∈ opcodes, w &&& (cell n).2 = (cell n).1 :=
  calc
    (∃ row ∈ rows, row.matches w = true)
      ↔ ∃ c ∈ rows.map (fun row => (row.pattern, row.mask)), w &&& c.2 = c.1 := by simp [OpcodeRow.matches]
    _ ↔ ∃ n ∈ opcodes, w &&& (cell n).2 = (cell n).1 := by simp [table]

theorem exists_commandRow_iff (w : Word) :
    (∃ row ∈ commandRows, row.matches w = true) ↔ wordWellFormed w = true := by
  rw [exists_row_iff commandRows_eq, wordWellFormed_iff]
  constructor
  · rintro ⟨n, mem, masked⟩
    obtain ⟨opcode, fields⟩ := (and_rowMask_eq_iff ..).mp masked
    rw [opcode, BitVec.toNat_ofNat]
    rw [List.mem_range] at mem
    exact ⟨by omega, fields⟩
  · rintro ⟨assigned, fields⟩
    refine ⟨(fieldOp w).toNat, List.mem_range.mpr (by omega), ?_⟩
    rw [BitVec.ofNat_toNat, BitVec.setWidth_eq]
    exact (and_rowMask_eq_iff ..).mpr ⟨rfl, fields⟩

theorem exists_reservedRow_iff (w : Word) :
    (∃ row ∈ reservedRows, row.matches w = true) ↔ 0xB ≤ (fieldOp w).toNat := by
  rw [exists_row_iff reservedRows_eq]
  simp only [and_opMask_eq_iff, List.mem_range'_1]
  constructor
  · rintro ⟨n, mem, opcode⟩
    rw [opcode, BitVec.toNat_ofNat]
    omega
  · intro unassigned
    refine ⟨(fieldOp w).toNat, ⟨unassigned, (fieldOp w).isLt⟩, ?_⟩
    rw [BitVec.ofNat_toNat, BitVec.setWidth_eq]

/-- Settles O4: the decoder's rules on one side, the masks of the table on the other. -/
theorem legalWordsAreTheTableRows : Obligations.LegalWordsAreTheTableRows := fun w =>
  ⟨(exists_commandRow_iff w).symm, (decode_rule w).legal_iff.symm,
    (exists_reservedRow_iff w).trans (decode_rule w).illegal_iff.symm⟩

/-- Settles O1, by running the decoder on each word. -/
theorem sampleWordsDecode : Obligations.SampleWordsDecode := by
  unfold Obligations.SampleWordsDecode
  decide

/-! ### The answer to an illegal word -/

/-- A command of a reserved opcode answers ILLEGAL. -/
theorem exec_answers_of_illegal {i : Instr} (illegal : i.wf = false) (s : State) :
    Answers (exec i s) s .illegal 0 [] := by
  cases i with
  | reservedB | reservedC | reservedD | reservedE | reservedF => exact answerIllegal_answers s
  | _ => cases illegal

/-- Settles O6: the five opcodes are the commands that are not legal. -/
theorem reservedOpcodesAnswerIllegal : Obligations.ReservedOpcodesAnswerIllegal := fun s _ =>
  ⟨exec_answers_of_illegal rfl s, exec_answers_of_illegal rfl s, exec_answers_of_illegal rfl s,
    exec_answers_of_illegal rfl s, exec_answers_of_illegal rfl s⟩

/-- A step on a word that fails the field check answers ILLEGAL. -/
theorem step_answers_of_not_wellFormed {s : State} {w : Word} {rest : List Word} (waiting : s.commands = w :: rest)
    (fails : wordWellFormed w ≠ true) : Answers (step s) { s with commands := rest } .illegal 0 [] := by
  obtain ⟨empty, -⟩ | ⟨w', rest', waiting', meaning⟩ := step_cases s
  · cases waiting.symm.trans empty
  · cases waiting.symm.trans waiting'
    obtain ⟨i, decodes, runs⟩ | ⟨e, -, refuses⟩ := meaning
    · have illegal : i.wf = false :=
        Bool.eq_false_iff.mpr fun legal => fails ((decode_rule w).legal_iff.mp ⟨i, decodes, legal⟩)
      exact runs ▸ exec_answers_of_illegal illegal _
    · exact refuses ▸ answerIllegal_answers _

/-- Settles O5: each of R65's reasons contradicts a part of the field check. -/
theorem illegalWordAnswersIllegal : Obligations.IllegalWordAnswersIllegal := by
  intro s w rest waiting reason
  refine step_answers_of_not_wellFormed waiting fun wellFormed => ?_
  obtain ⟨assigned, rsv, a, b⟩ := (wordWellFormed_iff w).mp wellFormed
  obtain unassigned | nonzero | ⟨unused, nonzero⟩ | ⟨unused, nonzero⟩ := reason
  · omega
  · exact nonzero rsv
  · exact nonzero (a.resolve_left (Bool.eq_false_iff.mp unused))
  · exact nonzero (b.resolve_left (Bool.eq_false_iff.mp unused))

end Sys2Proof.Machine
end

section
/-! PROOFS. The result codes, values and bytes of each command (R66, R67). -/

namespace Sys2Proof.Machine

/-- R202: what FEED answers; only FRAME_READY delivers bytes. -/
theorem FeedOutcome.code_mem {codec : Codec} {buf : List Byte} {latch : Bool} {r : FeedResult}
    (outcome : FeedOutcome codec buf latch r) :
    r.code ∈ [ResultCode.frameReady, .incomplete, .frameError, .noStart, .latched] ∧
      (r.code = .frameReady ∨ r.bytes = []) := by
  cases outcome with
  | latched | noStart => exact ⟨by simp, .inr rfl⟩
  | collected _ outcome =>
    cases outcome with
    | incomplete | mismatch => exact ⟨by simp [feedIncomplete, feedMismatch], .inr rfl⟩
    | ready => exact ⟨by simp [feedReady], .inl rfl⟩

/-- A payload byte is sent as two bytes, or as three with ESCAPE before them (R123). -/
theorem encodeByte_length (codec : Codec) (b : Byte) :
    (encodeByte codec b).length = 2 ∨ (encodeByte codec b).length = 3 := by
  unfold encodeByte
  split
  · exact .inr rfl
  · exact .inl rfl

/-- Settles O10: FEED's outcomes, and the answer each other command ends in. -/
theorem commandsAnswerTheirResultCodes : Obligations.CommandsAnswerTheirResultCodes := by
  refine ⟨fun i s => ?_, rfl, rfl, rfl, rfl, rfl, rfl, rfl⟩
  cases i with
  | feed =>
    obtain ⟨code, bytes⟩ := (feedResult_outcome s.cfg.codec s.buf s.latch).code_mem
    exact ⟨_, _, _, _, feedBody_answers _ s, code, rfl, bytes⟩
  | rxb a =>
    obtain ⟨code, bytes⟩ := (feedResult_outcome s.cfg.codec (bufAppend s a).buf s.latch).code_mem
    exact ⟨_, _, _, _, feedBody_answers _ (bufAppend s a), code, rfl, bytes⟩
  | reservedB | reservedC | reservedD | reservedE | reservedF =>
    exact ⟨_, _, _, _, answerIllegal_answers s, rfl, rfl, rfl⟩
  | chk | vfy | stat => exact ⟨_, _, _, _, answer_answers s _ _ _ _, rfl, rfl⟩
  | txd a => exact ⟨_, _, _, _, answer_answers s _ _ _ _, rfl, rfl, encodeByte_length _ a⟩
  | nop | txsof | txeof => exact ⟨_, _, _, _, answer_answers s _ _ _ _, rfl, rfl, rfl⟩
  | reset => exact ⟨_, _, _, _, execReset_answers s, rfl, rfl, rfl⟩
  | append a => exact ⟨_, _, _, _, execAppend_answers s a, rfl, rfl, rfl⟩

end Sys2Proof.Machine
end

section
/-! PROOFS. The encoder: its frames are the grammar's, and the commands of ENCODE emit them (R60, R120,
R125). -/

namespace Sys2Proof.Machine

theorem encodeByte_escaped {codec : Codec} {b : Byte} (tagged : b ∈ escapeSet codec) :
    encodeByte codec b = [ESCAPE, b, checkValue codec b] :=
  if_pos tagged

theorem encodeByte_plain {codec : Codec} {b : Byte} (fresh : b ∉ escapeSet codec) :
    encodeByte codec b = [b, checkValue codec b] :=
  if_neg fresh

/-- The encoder emits pairs of the grammar, one for each payload byte. -/
theorem isPairs_flatMap_encodeByte (codec : Codec) (payload : List Byte) :
    IsPairs codec (payload.flatMap (encodeByte codec)) := by
  induction payload with
  | nil => exact .none
  | cons b payload ih =>
    rw [List.flatMap_cons]
    by_cases tagged : b ∈ escapeSet codec
    · rw [encodeByte_escaped tagged]
      exact .escaped b _ tagged ih
    · rw [encodeByte_plain tagged]
      exact .plain b _ tagged ih

/-- Every run of pairs of the grammar comes from a payload. -/
theorem IsPairs.exists_payload {codec : Codec} {pairs : List Byte} (grammar : IsPairs codec pairs) :
    ∃ payload : List Byte, pairs = payload.flatMap (encodeByte codec) := by
  induction grammar with
  | none => exact ⟨[], rfl⟩
  | plain d rest fresh _ ih =>
    obtain ⟨payload, rfl⟩ := ih
    exact ⟨d :: payload, by rw [List.flatMap_cons, encodeByte_plain fresh]; rfl⟩
  | escaped d rest tagged _ ih =>
    obtain ⟨payload, rfl⟩ := ih
    exact ⟨d :: payload, by rw [List.flatMap_cons, encodeByte_escaped tagged]; rfl⟩

/-- Settles O32: the pairs of a frame are a payload's encoded bytes. -/
theorem encoderEmitsTheGrammar : Obligations.EncoderEmitsTheGrammar := by
  intro codec bytes
  constructor
  · rintro ⟨pairs, grammar, rfl⟩
    obtain ⟨payload, rfl⟩ := grammar.exists_payload
    exact ⟨payload, rfl⟩
  · rintro ⟨payload, rfl⟩
    exact ⟨_, isPairs_flatMap_encodeByte codec payload, rfl⟩

/-! ### The commands of ENCODE -/

/-- The bytes each encoder command emits (R122 to R124); none for the others. -/
def txBytes (codec : Codec) : Instr → List Byte
  | .txsof => [START]
  | .txd a => encodeByte codec a
  | .txeof => [STOP]
  | _ => []

/-- The response of an encoder command. -/
def txResponse (codec : Codec) (i : Instr) : Response :=
  { code := .ok, value := 0, bytes := txBytes codec i, diags := [] }

/-- All that an encoder command does is to push its response. -/
def Transmits (i : Instr) : Prop := ∀ s : State, exec i s = .next (s.pushResponse (txResponse s.cfg.codec i))

theorem transmits_of_mem_pseudoEncode {payload : List Byte} {i : Instr} (mem : i ∈ pseudoEncode payload) :
    Transmits i := by
  simp only [pseudoEncode, List.mem_append, List.mem_singleton, List.mem_map] at mem
  obtain (rfl | ⟨b, -, rfl⟩) | rfl := mem <;> exact fun _ => rfl

/-- The bytes of the commands of ENCODE, one after the other, are the encoded payload. -/
theorem flatMap_txBytes_pseudoEncode (codec : Codec) (payload : List Byte) :
    (pseudoEncode payload).flatMap (txBytes codec) = encodePayload codec payload := by
  simp only [pseudoEncode, encodePayload, List.flatMap_append, List.flatMap_map, List.flatMap_singleton, txBytes]

/-- A run begins with its first step. -/
theorem run_succ {s t : State} (next : step s = .next t) (n : Nat) :
    Host.Core.run core (n + 1) s = Host.Core.run core n t := by
  have first : core.step s = .next t := next
  simp only [Host.Core.run, first]

/-- Commands that only push a response, run in order, push their responses in order. -/
theorem run_transmits (rest : List Word) (cmds : List Instr) (transmit : ∀ i ∈ cmds, Transmits i) (s : State)
    (waiting : s.commands = cmds.map encode ++ rest) :
    Host.Core.run core cmds.length s =
      .next { s with commands := rest, responses := s.responses ++ cmds.map (txResponse s.cfg.codec) } := by
  induction cmds generalizing s with
  | nil =>
    obtain rfl : s.commands = rest := waiting
    rw [List.map_nil, List.append_nil]
    rfl
  | cons i cmds ih =>
    obtain ⟨first, others⟩ := List.forall_mem_cons.mp transmit
    have stepped := (stepRunsTheDecodedCommand s _ _ i waiting (decodeOfEncode i)).trans (first _)
    rw [List.length_cons, run_succ stepped, ih others _ rfl]
    simp

/-- Settles O35: each command of ENCODE pushes its bytes, which together are the encoded payload. -/
theorem encodeCommandsEmitTheFrame : Obligations.EncodeCommandsEmitTheFrame := by
  intro s payload rest waiting
  have turns : (pseudoEncode payload).length = payload.length + 2 := by simp [pseudoEncode]
  have ran := run_transmits rest _ (fun _ => transmits_of_mem_pseudoEncode) s waiting
  refine ⟨(pseudoEncode payload).map (txResponse s.cfg.codec), turns ▸ ran, ?_, ?_⟩
  · rw [← flatMap_txBytes_pseudoEncode, List.map_map]
    rfl
  · intro r mem
    obtain ⟨i, -, rfl⟩ := List.mem_map.mp mem
    exact ⟨rfl, rfl⟩

end Sys2Proof.Machine
end

section
/-! PROOFS. Parity: the check value is the parity of the byte's one bits, and so linear; the flips that pass
are those whose own parity the parity byte got flipped by (R106, R107, R109). -/

namespace Sys2Proof.Machine

/-! ### The check value -/

/-- The XOR of some bits: their number modulo 2. -/
def xorAll {α : Type} (p : α → Bool) (l : List α) : Bool := l.foldr (fun x odd => odd ^^ p x) false

theorem xorAll_cons {α : Type} (p : α → Bool) (x : α) (l : List α) : xorAll p (x :: l) = (xorAll p l ^^ p x) := rfl

theorem xorAll_eq_countP {α : Type} (p : α → Bool) (l : List α) : xorAll p l = decide (l.countP p % 2 = 1) := by
  induction l with
  | nil => rfl
  | cons x l ih =>
    rw [xorAll_cons, ih, List.countP_cons]
    cases p x with
    | false => simp
    | true =>
      rw [if_pos rfl, Bool.xor_true, ← decide_not, decide_eq_decide]
      omega

theorem xorAll_xor {α : Type} (p q : α → Bool) (l : List α) :
    xorAll (fun x => p x ^^ q x) l = (xorAll p l ^^ xorAll q l) := by
  induction l with
  | nil => rfl
  | cons x l ih => simp only [xorAll_cons, ih, Bool.xor_assoc, Bool.xor_left_comm]

/-- R106: the check value is the XOR of the eight bits. -/
theorem checkValuePar_eq_xorAll (b : Byte) :
    checkValuePar b = (BitVec.ofBool (xorAll b.getLsbD (List.range 8))).setWidth 8 := by
  have bits : List.range 8 = [0, 1, 2, 3, 4, 5, 6, 7] := rfl
  simp only [bits, xorAll, List.foldr_cons, List.foldr_nil, Bool.false_xor, checkValuePar]

/-- R106: the check value is 1 exactly for an odd number of one bits. -/
theorem checkValuePar_eq_popcount (b : Byte) :
    checkValuePar b = if popcount b % 2 = 1 then 0x01 else 0x00 := by
  have parity : xorAll b.getLsbD (List.range 8) = decide (popcount b % 2 = 1) := xorAll_eq_countP ..
  rw [checkValuePar_eq_xorAll, parity]
  split_ifs with odd <;> simp [odd]

theorem checkValuePar_eq_zero_iff (b : Byte) : checkValuePar b = 0 ↔ popcount b % 2 = 0 := by
  rw [checkValuePar_eq_popcount, ← Nat.mod_two_ne_one]
  split_ifs with odd <;> simp [odd]

theorem checkValuePar_eq_one_iff (b : Byte) : checkValuePar b = 1 ↔ popcount b % 2 = 1 := by
  rw [checkValuePar_eq_popcount]
  split_ifs with odd <;> simp [odd]

/-- R110: a parity check value is 0 or 1. -/
theorem checkValuePar_le_one (b : Byte) : (checkValuePar b).toNat ≤ 1 := by
  rw [checkValuePar_eq_popcount]
  split_ifs <;> decide

/-- Parity is linear over GF(2). -/
theorem checkValuePar_xor (a b : Byte) : checkValuePar (a ^^^ b) = checkValuePar a ^^^ checkValuePar b := by
  have bitwise : (a ^^^ b).getLsbD = fun i => a.getLsbD i ^^ b.getLsbD i := funext fun _ => BitVec.getLsbD_xor
  rw [checkValuePar_eq_xorAll, bitwise, xorAll_xor, ← BitVec.ofBool_xor_ofBool, BitVec.setWidth_xor,
    ← checkValuePar_eq_xorAll, ← checkValuePar_eq_xorAll]

/-! ### The codecs PAR1 and PAR2 -/

section Parity

variable {codec : Codec} (parity : codec = .par1 ∨ codec = .par2)

include parity

/-- R104. -/
theorem checkValue_of_parity (b : Byte) : checkValue codec b = checkValuePar b := by
  obtain rfl | rfl := parity <;> rfl

/-- R105, R107: under parity the received byte is compared whole. -/
theorem verify_iff_of_parity (b c : Byte) : verify codec b c = true ↔ checkValue codec b = c := by
  obtain rfl | rfl := parity <;> exact verifyPar_iff b c

/-- Flips `e` of the byte and `f` of its check value pass exactly if `f` is the parity of `e`. -/
theorem verify_flipped_iff (b e f : Byte) :
    verify codec (b ^^^ e) (checkValue codec b ^^^ f) = true ↔ checkValuePar e = f := by
  rw [verify_iff_of_parity parity, checkValue_of_parity parity, checkValue_of_parity parity, checkValuePar_xor,
    BitVec.xor_right_inj]

end Parity

/-- Settles O24: parity as a count of one bits, and the whole-byte comparison. -/
theorem parityIsOddBitCount : Obligations.ParityIsOddBitCount := fun _ parity b c =>
  ⟨(checkValue_of_parity parity b).trans (checkValuePar_eq_popcount b), verify_iff_of_parity parity b c⟩

/-- Settles O23: the parity byte is left alone, has its parity bit flipped, or has a higher bit flipped. -/
theorem parityDetectsOddFlips : Obligations.ParityDetectsOddFlips := by
  intro codec parity b e
  refine ⟨?_, ?_, fun f high => Bool.eq_false_iff.mpr fun passes => ?_⟩
  · rw [← checkValuePar_eq_zero_iff, ← verify_flipped_iff parity b e 0]
    simp
  · rw [← checkValuePar_eq_one_iff, ← verify_flipped_iff parity b]
  · have low := checkValuePar_le_one e
    rw [(verify_flipped_iff parity b e f).mp passes] at low
    omega

end Sys2Proof.Machine
end

section
/-! PROOFS. The commands CHK and VFY (R110, R111), and which commands set the latch (R22, R111, R141). -/

namespace Sys2Proof.Machine

/-- A CRC-4 check value is a 4-bit remainder. -/
theorem checkValueCrc4_le (b : Byte) : (checkValueCrc4 b).toNat ≤ 0xF := by
  unfold checkValueCrc4
  rw [BitVec.toNat_setWidth_of_le (by decide)]
  have remainder := (crcdiv12 (dividend b)).isLt
  omega

theorem execChk_answers (s : State) (a : Byte) :
    Answers (exec (.chk a) s) s .ok (zext32 (checkValue s.cfg.codec a)) [] :=
  answer_answers s _ _ _ _

theorem execVfy_answers (s : State) (a b : Byte) :
    Answers (exec (.vfy a b) s) s .ok (if verify s.cfg.codec a b then 1 else 0) [] :=
  answer_answers s _ _ _ _

/-- Settles O26: CHK's answer, the bounds of the check values, and the two examples' check values. -/
theorem chkReturnsTheCheckValue : Obligations.ChkReturnsTheCheckValue := by
  refine ⟨execChk_answers, fun _ => rfl,
    fun a => ⟨checkValueCrc4_le a, checkValuePar_le_one a, checkValuePar_le_one a⟩, fun s crc4 => ?_, fun s par1 => ?_⟩
  · have four : zext32 (checkValue s.cfg.codec 0x41) = 4 := by rw [crc4]; decide +kernel
    exact four ▸ execChk_answers s 0x41
  · have zero : zext32 (checkValue s.cfg.codec 0x41) = 0 := by rw [par1]; decide
    exact zero ▸ execChk_answers s 0x41

theorem execVfy_answers_one {s : State} {a b : Byte} (valid : verify s.cfg.codec a b = true) :
    Answers (exec (.vfy a b) s) s .ok 1 [] := by
  simpa only [if_pos valid] using execVfy_answers s a b

theorem execVfy_answers_zero {s : State} {a b : Byte} (invalid : verify s.cfg.codec a b = false) :
    Answers (exec (.vfy a b) s) s .ok 0 [] := by
  simpa only [invalid, if_neg Bool.false_ne_true] using execVfy_answers s a b

/-- The response does not enter the latch. -/
theorem Answers.latch_next {o : Host.Outcome State Fault Refusal} {t u : State} {code : ResultCode}
    {value : Word} {bytes : List Byte} (answers : Answers o t code value bytes) (next : o = .next u) :
    u.latch = t.latch := by
  obtain ⟨diags, rfl⟩ := answers
  cases next
  rfl

/-- Only a command that runs FEED-body sets a clear latch. -/
theorem Effect.runsFeed_of_latch_set {s t : State} {i : Instr} {code : ResultCode} (effect : Effect s i t code)
    (clear : s.latch = false) (set : t.latch = true) : ∃ u, RunsFeed s i u := by
  cases effect with
  | reset => cases set
  | append | unchanged => exact absurd (clear.symm.trans set) Bool.false_ne_true
  | feed runs => exact ⟨_, runs⟩

/-- R141, R142: the two commands that run FEED-body. -/
theorem RunsFeed.eq_feed_or_rxb {s u : State} {i : Instr} (runs : RunsFeed s i u) : i = .feed ∨ ∃ a, i = .rxb a := by
  cases runs with
  | feed => exact .inl rfl
  | rxb a => exact .inr ⟨a, rfl⟩

/-- Settles O27: VFY's answer, the verdicts of the corner cases, and the effects that set the latch. -/
theorem vfyReturnsValidity : Obligations.VfyReturnsValidity := by
  refine ⟨execVfy_answers, fun _ _ => rfl, fun s crc4 => ⟨?_, ?_, ?_⟩, fun s a par1 => ?_,
    fun i s t next clear set => ?_⟩
  · exact execVfy_answers_one (by rw [crc4]; decide +kernel)
  · exact execVfy_answers_one (by rw [crc4]; decide +kernel)
  · exact execVfy_answers_zero (by rw [crc4]; decide +kernel)
  · obtain ⟨startInvalid, -, -⟩ := verifyPar_tag a
    exact execVfy_answers_zero (par1 ▸ startInvalid)
  · obtain ⟨_, _, _, _, answers, effect⟩ := exec_effect i s
    obtain ⟨_, runs⟩ := effect.runsFeed_of_latch_set clear ((answers.latch_next next).symm.trans set)
    exact runs.eq_feed_or_rxb

end Sys2Proof.Machine
end

section
/-! PROOFS. The encoder's commands TXSOF, TXD and TXEOF, and the bytes they escape (R121 to R124). -/

namespace Sys2Proof.Machine

/-! ### The escape sets -/

/-- R121, CRC4: only the tags are escaped. -/
theorem mem_escapeSet_crc4 (b : Byte) : b ∈ escapeSet .crc4 ↔ b = START ∨ b = STOP ∨ b = ESCAPE := by
  simp only [escapeSet, List.mem_cons, List.not_mem_nil, or_false]

/-- R121, parity: the two check values 0 and 1 are escaped as well as the tags. -/
theorem mem_escapeSet_of_parity {codec : Codec} (parity : codec = .par1 ∨ codec = .par2) (b : Byte) :
    b ∈ escapeSet codec ↔ b = START ∨ b = STOP ∨ b = ESCAPE ∨ b = 0x00 ∨ b = 0x01 := by
  obtain rfl | rfl := parity <;> simp only [escapeSet, List.mem_cons, List.not_mem_nil, or_false]

/-- Settles O28: the set of CRC4, and the one set of the two parity codecs. -/
theorem escapeSetsFollowTheTable : Obligations.EscapeSetsFollowTheTable := fun b =>
  ⟨mem_escapeSet_crc4 b, mem_escapeSet_of_parity (.inl rfl) b, mem_escapeSet_of_parity (.inr rfl) b⟩

/-! ### The bytes of TXD -/

/-- R123: ESCAPE stands in front exactly for a byte of the escape set; the rest is the same for every byte. -/
theorem encodeByte_eq_append (codec : Codec) (b : Byte) :
    encodeByte codec b = (if b ∈ escapeSet codec then [ESCAPE] else []) ++ [b, checkValue codec b] := by
  split_ifs with tagged
  · exact encodeByte_escaped tagged
  · exact encodeByte_plain tagged

/-- The two parity codecs encode alike. -/
theorem encodeByte_of_parity {codec : Codec} (parity : codec = .par1 ∨ codec = .par2) (b : Byte) :
    encodeByte codec b = encodeByte .par1 b := by
  obtain rfl | rfl := parity <;> rfl

/-- R123's bytes under CRC4. -/
theorem encodeByte_crc4_corners :
    encodeByte .crc4 0x00 = [0x00, 0x00] ∧ encodeByte .crc4 0x41 = [0x41, 0x04] ∧
    encodeByte .crc4 0x5C = [0x5C, 0x5C, 0x05] ∧ encodeByte .crc4 0x7B = [0x5C, 0x7B, 0x06] ∧
    encodeByte .crc4 0x7D = [0x5C, 0x7D, 0x0C] := by
  decide +kernel

/-- R123's bytes under parity. -/
theorem encodeByte_par1_corners :
    encodeByte .par1 0x00 = [0x5C, 0x00, 0x00] ∧ encodeByte .par1 0x01 = [0x5C, 0x01, 0x01] ∧
    encodeByte .par1 0x5C = [0x5C, 0x5C, 0x00] ∧ encodeByte .par1 0x7B = [0x5C, 0x7B, 0x00] ∧
    encodeByte .par1 0x7D = [0x5C, 0x7D, 0x00] := by
  decide

/-! ### The commands -/

/-- R122. -/
theorem execTxsof_answers (s : State) : Answers (exec .txsof s) s .ok 0 [START] := answer_answers s _ _ _ _

/-- R124. -/
theorem execTxeof_answers (s : State) : Answers (exec .txeof s) s .ok 0 [STOP] := answer_answers s _ _ _ _

/-- TXD answers whatever bytes the escape encoder gives for its operand (R123). -/
theorem execTxd_answers {s : State} {a : Byte} {bytes : List Byte}
    (encodes : encodeByte s.cfg.codec a = bytes) : Answers (exec (.txd a) s) s .ok 0 bytes :=
  encodes ▸ answer_answers s _ _ _ _

/-- Settles O29: TXSOF's answer reads nothing of the state. -/
theorem txsofEmitsStart : Obligations.TxsofEmitsStart := ⟨execTxsof_answers, by decide⟩

/-- Settles O30: TXD's answer from the bytes of the escape encoder, in general and at the rule's corner
cases. -/
theorem txdEmitsByteAndCheckValue : Obligations.TxdEmitsByteAndCheckValue := by
  refine ⟨fun s a => execTxd_answers (encodeByte_eq_append s.cfg.codec a), fun _ => rfl, fun s crc4 => ?_,
    fun s parity => ?_⟩
  · obtain ⟨zero, letter, escape, start, stop⟩ := crc4 ▸ encodeByte_crc4_corners
    exact ⟨execTxd_answers zero, execTxd_answers letter, execTxd_answers escape, execTxd_answers start,
      execTxd_answers stop⟩
  · have alike := encodeByte_of_parity parity
    obtain ⟨zero, one, escape, start, stop⟩ := encodeByte_par1_corners
    exact ⟨execTxd_answers ((alike _).trans zero), execTxd_answers ((alike _).trans one),
      execTxd_answers ((alike _).trans escape), execTxd_answers ((alike _).trans start),
      execTxd_answers ((alike _).trans stop)⟩

/-- Settles O31: TXEOF's answer reads nothing of the state. -/
theorem txeofEmitsStop : Obligations.TxeofEmitsStop := ⟨execTxeof_answers, by decide⟩

end Sys2Proof.Machine
end

section
/-! PROOFS. The commands APPEND and RXB (R140, R141). -/

namespace Sys2Proof.Machine

/-- APPEND leaves whatever `BufAppend` makes of the buffer (R41, R140). -/
theorem execAppend_answers_of_eq {s : State} {a : Byte} {buf : List Byte}
    (result : appended s.cfg.maxBuf s.buf a = buf) : Answers (exec (.append a) s) { s with buf := buf } .ok 0 [] :=
  result ▸ execAppend_answers s a

theorem appended_of_not_full {maxBuf : MaxBuf} {buf : List Byte} (room : maxBuf ≠ .finite buf.length) (b : Byte) :
    appended maxBuf buf b = buf ++ [b] :=
  if_neg fun full => room ((bufferFull_iff maxBuf buf).mp full)

theorem appended_of_full {maxBuf : MaxBuf} {buf : List Byte} (full : maxBuf = .finite buf.length) (b : Byte) :
    appended maxBuf buf b = [b] :=
  if_pos ((bufferFull_iff maxBuf buf).mpr full)

/-- In an empty buffer the byte stands alone, whatever MAX_BUF is. -/
theorem appended_nil (maxBuf : MaxBuf) (b : Byte) : appended maxBuf [] b = [b] := ite_self _

/-- Settles O36: the buffer that `BufAppend` leaves, with room for the byte and without. -/
theorem appendAddsItsByte : Obligations.AppendAddsItsByte :=
  ⟨fun _ a room => execAppend_answers_of_eq (appended_of_not_full room a),
    fun _ a full => execAppend_answers_of_eq (appended_of_full full a), fun _ => rfl,
    fun _ empty => execAppend_answers_of_eq (by rw [empty, appended_nil])⟩

/-- Settles O37: RXB and FEED run the same FEED-body on the state that APPEND leaves. -/
theorem rxbIsAppendThenFeed : Obligations.RxbIsAppendThenFeed :=
  ⟨fun s a => ⟨bufAppend s a, _, _, _, execAppend_answers s a, feedBody_answers [] (bufAppend s a),
    feedBody_answers _ (bufAppend s a)⟩, fun _ => rfl⟩

end Sys2Proof.Machine
end

section
/-! PROOFS. FEED's answer without its diagnostics (R68), and FEED on a latched instance (R144). -/

namespace Sys2Proof.Machine

/-- What FEED answers and leaves, without its diagnostics (R68). -/
def FeedResult.contract (r : FeedResult) : IndexedResult :=
  { code := r.code, bytes := r.bytes, buf := r.buf, latch := r.latch }

/-- R142: FEED answers what FEED-body gives. -/
theorem execFeed_answers_of_eq {s : State} {r : FeedResult} (result : feedResult s.cfg.codec s.buf s.latch = r) :
    Answers (exec .feed s) { s with buf := r.buf, latch := r.latch } r.code 0 r.bytes :=
  feedBody_answers_of_eq result []

/-- FEED's answer is fixed by its result without the diagnostics. -/
theorem execFeed_answers_of_contract_eq {s : State} {c : IndexedResult}
    (result : (feedResult s.cfg.codec s.buf s.latch).contract = c) :
    Answers (exec .feed s) { s with buf := c.buf, latch := c.latch } c.code 0 c.bytes :=
  result ▸ execFeed_answers_of_eq rfl

/-- Two FEEDs whose results differ in diagnostics alone have one answer. -/
theorem execFeed_answers_alike {s : State} {buf : List Byte} {latch : Bool}
    (alike : (feedResult s.cfg.codec s.buf s.latch).contract = (feedResult s.cfg.codec buf latch).contract) :
    ∃ t code bytes, Answers (exec .feed s) t code 0 bytes ∧
      Answers (exec .feed { s with buf := buf, latch := latch }) t code 0 bytes :=
  ⟨_, _, _, execFeed_answers_of_contract_eq alike, execFeed_answers_of_eq rfl⟩

/-- A PAR2 FEED does not read the latch: step 1 clears it (R144). -/
theorem feedResult_par2 (buf : List Byte) (latch : Bool) : feedResult .par2 buf latch = feedResult .par2 buf false :=
  rfl

/-- A PAR2 FEED is never LATCHED (R144). -/
theorem FeedOutcome.code_ne_latched {codec : Codec} {buf : List Byte} {latch : Bool} {r : FeedResult}
    (outcome : FeedOutcome codec buf latch r) (par2 : codec = .par2) : r.code ≠ .latched := by
  cases outcome with
  | latched keeps => exact absurd par2 keeps
  | noStart => nofun
  | collected _ outcome => cases outcome <;> nofun

/-- Settles O38: the latched result, a PAR2 FEED's blindness to the latch, and the effects that keep it. -/
theorem latchedFeedDecodesNothing : Obligations.LatchedFeedDecodesNothing := by
  refine ⟨fun s keeps set => ?_, fun s par2 => ?_, fun i s t keeps set noReset next => ?_⟩
  · have result := set ▸ feedResult_latched keeps s.buf
    simpa only [set] using execFeed_answers_of_eq result
  · have result : feedResult s.cfg.codec s.buf s.latch = feedResult s.cfg.codec s.buf false :=
      par2 ▸ feedResult_par2 s.buf s.latch
    exact ⟨_, _, _, execFeed_answers_of_eq result, execFeed_answers_of_eq rfl,
      (feedResult_outcome s.cfg.codec s.buf false).code_ne_latched par2⟩
  · obtain ⟨_, _, _, _, answers, effect⟩ := exec_effect i s
    exact (answers.latch_next next).trans (effect.latch_stays keeps set noReset)

end Sys2Proof.Machine
end

section
/-! PROOFS. FEED does what R143 does with its index: each rule of `collect` holds of `indexedCollect` at the
index where the bytes still to be scanned begin. -/

namespace Sys2Proof.Machine

/-- What step 3 can find from a data position on: one case per rule of R146 to R154. -/
inductive ScanCase : List Byte → Prop where
  | cut {tail : List Byte} (pair : CutPair tail) : ScanCase tail
  | stop (rest : List Byte) : ScanCase (STOP :: rest)
  | start (rest : List Byte) : ScanCase (START :: rest)
  | escaped (l c : Byte) (rest : List Byte) : ScanCase (ESCAPE :: l :: c :: rest)
  | plain {t : Byte} (literal : isTag t = false) (c : Byte) (rest : List Byte) : ScanCase (t :: c :: rest)

theorem scanCase (scan : List Byte) : ScanCase scan := by
  match scan with
  | [] => exact .cut .none
  | t :: rest =>
    by_cases escape : t = ESCAPE
    · subst escape
      match rest with
      | [] => exact .cut .escape
      | [l] => exact .cut (.escaped l)
      | l :: c :: rest => exact .escaped l c rest
    · by_cases stop : t = STOP
      · exact stop ▸ .stop rest
      · by_cases start : t = START
        · exact start ▸ .start rest
        · have literal : isTag t = false := isTag_eq_false.mpr ⟨start, stop, escape⟩
          match rest with
          | [] => exact .cut (.plain t literal)
          | c :: rest => exact .plain literal c rest

/-- R151: the mismatch without its diagnostic. -/
theorem indexedFrameError_eq {codec : Codec} {buf rest : List Byte} {j : Nat} (after : bufDropFront (j + 1) buf = rest)
    (latch : Bool) (diags : List Diag) :
    indexedFrameError codec buf j = (feedMismatch codec latch rest diags).contract := by
  unfold indexedFrameError feedMismatch FeedResult.contract
  rw [after, ite_not]
  rfl

section Indexed

variable {buf : List Byte} {k : Nat}

/-- The buffer at an index from `k` on, by the bytes that stand there. -/
theorem getD_add_of_drop_eq {scan : List Byte} (found : buf.drop k = scan) (i : Nat) :
    buf.getD (k + i) 0 = scan.getD i 0 := by
  rw [← found, List.getD_eq_getElem?_getD, List.getD_eq_getElem?_getD, List.getElem?_drop]

theorem drop_add_of_drop_eq {scan : List Byte} (found : buf.drop k = scan) (i : Nat) :
    buf.drop (k + i) = scan.drop i := by
  rw [← found, List.drop_drop]

theorem length_of_drop_eq_cons {t : Byte} {rest : List Byte} (found : buf.drop k = t :: rest) :
    buf.length = k + (rest.length + 1) := by
  have length := congrArg List.length found
  rw [List.length_drop, List.length_cons] at length
  omega

variable (codec : Codec) (latch : Bool) (turns : Nat) (data : List Byte)

/-- R149, R152 and R154: a pair that is not complete. -/
theorem indexedCollect_cut {tail : List Byte} (found : buf.drop k = tail) (cut : CutPair tail) :
    indexedCollect codec latch (turns + 1) buf data k = some { code := .incomplete, bytes := [], buf, latch } := by
  rw [indexedCollect]
  cases cut with
  | none => exact if_pos (List.drop_eq_nil_iff.mp found)
  | plain t literal =>
    obtain ⟨hs, hp, he⟩ := isTag_eq_false.mp literal
    have first : buf.getD k 0 = t := getD_add_of_drop_eq found 0
    have length : buf.length = k + 1 := length_of_drop_eq_cons found
    rw [if_neg (by omega)]
    simp only [first, if_neg he, if_neg hp, if_neg hs]
    exact if_pos (by omega)
  | escape | escaped l =>
    have first : buf.getD k 0 = ESCAPE := getD_add_of_drop_eq found 0
    have length := length_of_drop_eq_cons found
    simp only [List.length_cons, List.length_nil] at length
    rw [if_neg (by omega)]
    simp only [first, if_true]
    exact if_pos (by omega)

/-- R148. -/
theorem indexedCollect_stop {rest : List Byte} (found : buf.drop k = STOP :: rest) :
    indexedCollect codec latch (turns + 1) buf data k =
      some { code := .frameReady, bytes := data, buf := rest, latch } := by
  have first : buf.getD k 0 = STOP := getD_add_of_drop_eq found 0
  have after : bufDropFront (k + 1) buf = rest := drop_add_of_drop_eq found 1
  have length := length_of_drop_eq_cons found
  rw [indexedCollect, if_neg (by omega)]
  simp only [first, after, if_neg STOP_ne_ESCAPE, if_true]

/-- R150. -/
theorem indexedCollect_start {rest : List Byte} (found : buf.drop k = START :: rest) :
    indexedCollect codec latch (turns + 1) buf data k = indexedCollect codec latch turns (START :: rest) [] 1 := by
  have first : buf.getD k 0 = START := getD_add_of_drop_eq found 0
  have frame : bufDropFront k buf = START :: rest := found
  have length := length_of_drop_eq_cons found
  rw [indexedCollect, if_neg (by omega)]
  simp only [first, frame, if_neg START_ne_ESCAPE, if_neg START_ne_STOP, if_true]

/-- R149 and R151, a complete escaped pair. -/
theorem indexedCollect_escaped {l c : Byte} {rest : List Byte} (found : buf.drop k = ESCAPE :: l :: c :: rest) :
    indexedCollect codec latch (turns + 1) buf data k =
      if verify codec l c then indexedCollect codec latch turns buf (data ++ [l]) (k + 3)
      else some (feedMismatch codec latch rest []).contract := by
  have first : buf.getD k 0 = ESCAPE := getD_add_of_drop_eq found 0
  have second : buf.getD (k + 1) 0 = l := getD_add_of_drop_eq found 1
  have third : buf.getD (k + 2) 0 = c := getD_add_of_drop_eq found 2
  have after : bufDropFront (k + 3) buf = rest := drop_add_of_drop_eq found 3
  have length := length_of_drop_eq_cons found
  rw [List.length_cons, List.length_cons] at length
  rw [indexedCollect, if_neg (by omega)]
  simp only [first, second, third, if_true]
  rw [if_neg (by omega), ite_not, indexedFrameError_eq after latch []]

/-- R151, R152 and R153, a complete plain pair. -/
theorem indexedCollect_plain {t c : Byte} {rest : List Byte} (literal : isTag t = false)
    (found : buf.drop k = t :: c :: rest) :
    indexedCollect codec latch (turns + 1) buf data k =
      if codec = .par2 ∧ c = START then indexedCollect codec latch turns (c :: rest) [] 1
      else if verify codec t c then indexedCollect codec latch turns buf (data ++ [t]) (k + 2)
      else some (feedMismatch codec latch rest []).contract := by
  obtain ⟨hs, hp, he⟩ := isTag_eq_false.mp literal
  have first : buf.getD k 0 = t := getD_add_of_drop_eq found 0
  have second : buf.getD (k + 1) 0 = c := getD_add_of_drop_eq found 1
  have frame : bufDropFront (k + 1) buf = c :: rest := drop_add_of_drop_eq found 1
  have after : bufDropFront (k + 2) buf = rest := drop_add_of_drop_eq found 2
  have length := length_of_drop_eq_cons found
  rw [List.length_cons] at length
  rw [indexedCollect, if_neg (by omega)]
  simp only [first, second, frame, if_neg he, if_neg hp, if_neg hs]
  rw [if_neg (by omega), ite_not, indexedFrameError_eq after latch []]

end Indexed

/-- Step 3 from an index on is step 3 on the bytes from that index on, and takes a turn for each of them at
most: every turn goes on past a byte. -/
theorem indexedCollect_eq_collect (codec : Codec) (latch : Bool) {turns : Nat} {frame scan : List Byte} {k : Nat}
    (data : List Byte) (diags : List Diag) (found : frame.drop k = scan) (enough : scan.length < turns) :
    indexedCollect codec latch turns frame data k = some (collect codec latch frame data diags scan).contract := by
  induction turns generalizing frame scan k data diags with
  | zero => exact absurd enough (Nat.not_lt_zero _)
  | succ turns ih =>
    cases scanCase scan with
    | cut pair => rw [indexedCollect_cut _ _ _ _ found pair, collect_cut _ _ _ _ _ pair]; rfl
    | stop rest => rw [indexedCollect_stop _ _ _ _ found, collect_stop]; rfl
    | start rest =>
      rw [List.length_cons] at enough
      rw [indexedCollect_start _ _ _ _ found, collect_start]
      exact ih _ _ rfl (by omega)
    | escaped l c rest =>
      simp only [List.length_cons] at enough
      rw [indexedCollect_escaped _ _ _ _ found, collect_escaped]
      split
      · exact ih _ _ (drop_add_of_drop_eq found 3) (by omega)
      · rfl
    | plain literal c rest =>
      simp only [List.length_cons] at enough
      rw [indexedCollect_plain _ _ _ _ literal found, collect_plain _ _ _ _ _ literal]
      split
      · exact ih _ _ rfl (by omega)
      split
      · exact ih _ _ (drop_add_of_drop_eq found 2) (by omega)
      · rfl

/-- The indexed algorithm emits no diagnostics, so those of `collect` decide nothing (R68). -/
theorem collect_contract_diags (codec : Codec) (latch : Bool) (data : List Byte) (diags diags' : List Diag)
    {frame scan : List Byte} {k : Nat} (found : frame.drop k = scan) :
    (collect codec latch frame data diags scan).contract = (collect codec latch frame data diags' scan).contract :=
  Option.some.inj <|
    (indexedCollect_eq_collect codec latch data diags found (Nat.lt_succ_self _)).symm.trans
      (indexedCollect_eq_collect codec latch data diags' found (Nat.lt_succ_self _))

/-- R143's step 1 is the latch at the start of a FEED (R144). -/
theorem ite_par2_eq_latchAtFeed (codec : Codec) (latch : Bool) :
    (if codec = .par2 then false else latch) = latchAtFeed codec latch := by
  cases codec <;> rfl

theorem indexedFeed_eq_feedResult (codec : Codec) {turns : Nat} {buf : List Byte} (latch : Bool)
    (enough : buf.length < turns) :
    indexedFeed codec turns buf latch = some (feedResult codec buf latch).contract := by
  unfold indexedFeed
  simp only [ite_par2_eq_latchAtFeed]
  by_cases set : latchAtFeed codec latch = true
  · obtain ⟨keeps, rfl⟩ := latchAtFeed_eq_true.mp set
    rw [if_pos set, set, feedResult_latched keeps]
    rfl
  · have clear : latchAtFeed codec latch = false := Bool.eq_false_iff.mpr set
    rw [if_neg set, clear]
    by_cases found : START ∈ buf
    · obtain ⟨garbage, rest, rfl, none⟩ := List.eq_append_cons_of_mem found
      rw [if_neg (not_not_intro found), ← seekStart_eq_bufDropFront, seekStart_append none, feedResult_start clear none]
      refine indexedCollect_eq_collect codec false [] [] rfl ?_
      rw [List.length_append, List.length_cons] at enough
      show rest.length < turns
      omega
    · rw [if_pos found, feedResult_noStart clear found]
      cases codec <;> rfl

/-- Settles O45: the indexed algorithm gives FEED's result, and that fixes FEED's answer. -/
theorem feedFollowsTheIndexedAlgorithm : Obligations.FeedFollowsTheIndexedAlgorithm := fun s _ enough =>
  ⟨_, indexedFeed_eq_feedResult s.cfg.codec s.latch enough, execFeed_answers_of_contract_eq rfl⟩

end Sys2Proof.Machine
end

section
/-! PROOFS. FEED rule by rule: the search for START, and what verified pairs are followed by (R145 to R154). -/

namespace Sys2Proof.Machine

/-- FEED reads the buffer from its first START on only (R145). -/
theorem feedResult_congr_seekStart (codec : Codec) {buf buf' : List Byte} (latch : Bool)
    (same : seekStart buf = seekStart buf') : feedResult codec buf latch = feedResult codec buf' latch := by
  unfold feedResult
  rw [same]

/-- Settles O39: the result without a START, and the search that passes over what stands before one. -/
theorem feedSeeksTheFirstStart : Obligations.FeedSeeksTheFirstStart := by
  refine ⟨fun s unlatched none => ?_, fun s garbage rest none holds => ?_⟩
  · have answers := execFeed_answers_of_eq (feedResult_noStart (latchAtFeed_eq_false.mpr unlatched) none)
    simpa only [latchOnNoStart_false] using answers
  · have found : seekStart s.buf = seekStart (START :: rest) := by
      rw [holds, seekStart_append none]
      exact (seekStart_append List.not_mem_nil rest).symm
    exact execFeed_answers_alike (congrArg _ (feedResult_congr_seekStart s.cfg.codec s.latch found))

/-! ### What ends the frame (R148, R151, R154) -/

/-- R151: a failing pair ends the frame. -/
theorem collect_failing {codec : Codec} {failing : List Byte} (fails : FailingPair codec failing) (latch : Bool)
    (frame data : List Byte) (diags : List Diag) (rest : List Byte) :
    collect codec latch frame data diags (failing ++ rest) = feedMismatch codec latch rest diags := by
  cases fails with
  | plain t c literal invalid kept =>
    exact (collect_plain _ _ _ _ _ literal c rest).trans
      ((if_neg kept).trans (if_neg (Bool.eq_false_iff.mp invalid)))
  | escaped l c invalid =>
    exact (collect_escaped _ _ _ _ _ l c rest).trans (if_neg (Bool.eq_false_iff.mp invalid))

/-- From verified pairs on, an unlatched FEED collects what stands behind them (R146, R149, R152). -/
theorem feedResult_verified {s : State} {pairs data tail : List Byte} (unlatched : Unlatched s)
    (verified : Verified s.cfg.codec pairs data) (holds : s.buf = START :: (pairs ++ tail)) :
    feedResult s.cfg.codec s.buf s.latch = collect s.cfg.codec false s.buf data [] tail := by
  have started := feedResult_start (latchAtFeed_eq_false.mpr unlatched) List.not_mem_nil (pairs ++ tail)
  rw [List.nil_append, collect_verified verified, List.nil_append] at started
  rw [holds, started]

/-- Settles O40: STOP behind the verified pairs. -/
theorem stopDeliversTheFrame : Obligations.StopDeliversTheFrame := by
  intro s pairs data rest unlatched verified holds
  exact execFeed_answers_of_eq ((feedResult_verified unlatched verified holds).trans (collect_stop ..))

/-- Settles O44: an incomplete pair behind the verified pairs. -/
theorem cutFrameWaits : Obligations.CutFrameWaits := by
  intro s pairs data tail unlatched verified cut holds
  exact execFeed_answers_of_eq ((feedResult_verified unlatched verified holds).trans (collect_cut _ _ _ _ _ cut))

/-- Settles O43: a failing pair behind the verified pairs. -/
theorem checkMismatchDiscardsTheFrame : Obligations.CheckMismatchDiscardsTheFrame := by
  intro s pairs data failing rest unlatched verified fails holds
  rw [List.append_assoc] at holds
  exact execFeed_answers_of_eq ((feedResult_verified unlatched verified holds).trans (collect_failing fails ..))

/-! ### The frame restarts (R150, R153) -/

/-- Two buffers from which step 3 gives the same, without its diagnostics: so does FEED, latched or not. -/
theorem feedResult_contract_congr (codec : Codec) {scan scan' : List Byte} (latch : Bool)
    (alike : (collect codec false (START :: scan) [] [] scan).contract =
      (collect codec false (START :: scan') [] [] scan').contract) :
    (feedResult codec (START :: scan) latch).contract = (feedResult codec (START :: scan') latch).contract := by
  by_cases set : latchAtFeed codec latch = true
  · obtain ⟨keeps, rfl⟩ := latchAtFeed_eq_true.mp set
    rw [feedResult_latched keeps, feedResult_latched keeps]
  · have started := feedResult_start (Bool.eq_false_iff.mpr set) List.not_mem_nil
    have first := started scan
    have second := started scan'
    rw [List.nil_append] at first second
    rw [first, second, alike]

/-- Where verified pairs stand before a restart at a START, FEED answers as from that START. -/
theorem execFeed_answers_restart {s : State} {pairs data tail rest : List Byte}
    (verified : Verified s.cfg.codec pairs data) (holds : s.buf = START :: (pairs ++ tail)) (diags : List Diag)
    (restarts : collect s.cfg.codec false s.buf data [] tail =
      collect s.cfg.codec false (START :: rest) [] diags rest) :
    ∃ t code bytes, Answers (exec .feed s) t code 0 bytes ∧
      Answers (exec .feed { s with buf := START :: rest }) t code 0 bytes := by
  refine execFeed_answers_alike ?_
  rw [holds] at restarts ⊢
  refine feedResult_contract_congr s.cfg.codec s.latch ?_
  rw [collect_verified verified, List.nil_append, restarts]
  exact collect_contract_diags _ _ _ _ _ (k := 1) rfl

/-- Settles O41: a START behind the verified pairs. -/
theorem midFrameStartResynchronizes : Obligations.MidFrameStartResynchronizes := by
  intro s pairs data rest verified holds
  exact execFeed_answers_restart verified holds [] (collect_start ..)

/-- Settles O42: a plain literal and a START behind the verified pairs; the restart adds a diagnostic. -/
theorem parTwoRecoversFromCorruptedStop : Obligations.ParTwoRecoversFromCorruptedStop := by
  intro s pairs data rest literal par2 verified plain holds
  exact execFeed_answers_restart verified holds [.stopCorrupted]
    ((collect_plain _ _ _ _ _ plain START rest).trans (if_pos ⟨par2, rfl⟩))

end Sys2Proof.Machine
end

section
/-! PROOFS. The control commands NOP and RESET (R180, R181). -/

namespace Sys2Proof.Machine

/-- STAT's LATCH and BUFLEN fields on an empty buffer with a clear latch, as RESET leaves them. -/
theorem statusWord_of_empty {s : State} (empty : s.buf = []) (clear : s.latch = false) :
    (statusWord s).getLsbD 0 = false ∧ (statusWord s).extractLsb' 8 24 = 0 := by
  refine ⟨(statusWord_latch s).trans clear, BitVec.eq_of_toNat_eq ?_⟩
  rw [statusWord_bufLen, empty]
  rfl

/-- A command that clears a set CRC4 or PAR1 latch is RESET: every other command keeps it (R22, R181). -/
theorem eq_reset_of_latch_cleared {i : Instr} {s t : State} (keeps : s.cfg.codec ≠ .par2) (set : s.latch = true)
    (next : exec i s = .next t) (cleared : t.latch = false) : i = .reset := by
  obtain ⟨-, -, latch_stays⟩ := latchedFeedDecodesNothing
  by_contra noReset
  have stays : t.latch = true := latch_stays i s t keeps set noReset next
  exact Bool.false_ne_true (cleared.symm.trans stays)

/-- Settles O17: RESET's answer, the effects that keep a set latch, and the status word's fields. -/
theorem resetEmptiesAndUnlatches : Obligations.ResetEmptiesAndUnlatches :=
  ⟨execReset_answers, by decide, fun _ _ _ => eq_reset_of_latch_cleared,
    fun s empty clear => ⟨statusWord s, execStat_answers s, statusWord_of_empty empty clear⟩⟩

/-- R180. -/
theorem execNop_answers (s : State) : Answers (exec .nop s) s .ok 0 [] := answer_answers s _ _ _ _

/-- Opcode 0 selects NOP's row, which uses no operand (R63, R72). -/
theorem decode_of_fieldOp_eq_zero {w : Word} (opcode : fieldOp w = 0) : decode w = decodeNone w .nop := by
  simp only [decode, opcode]
  rfl

/-- A command without operands is refused where RSV, A or B is not 0 (R64). -/
theorem decodeNone_error {w : Word} (nonzero : fieldRsv w ≠ 0 ∨ fieldA w ≠ 0 ∨ fieldB w ≠ 0) (i : Instr) :
    ∃ e, decodeNone w i = .error e := by
  cases decodes : decodeNone w i with
  | error e => exact ⟨e, rfl⟩
  | ok j =>
    obtain ⟨-, rsv, a, b⟩ := (decodeNone_eq_ok ..).mp decodes
    obtain rsv_ne | a_ne | b_ne := nonzero
    · exact absurd rsv rsv_ne
    · exact absurd a a_ne
    · exact absurd b b_ne

/-- Settles O16: NOP's answer, its word, and the refusal of a command without operands. -/
theorem nopDoesNothing : Obligations.NopDoesNothing :=
  ⟨execNop_answers, by decide, fun _ opcode nonzero => decode_of_fieldOp_eq_zero opcode ▸ decodeNone_error nonzero .nop⟩

end Sys2Proof.Machine
end

section
/-! PROOFS. What each FEED result leaves of the buffer, and the latch (R29, R201): the last frame started in
the buffer decides. -/

namespace Sys2Proof.Machine

/-- The rows of R29's table in which FEED found a START: where the last frame it started stands in `buf`, what
follows the verified pairs of that frame, and the result that follows from it. -/
inductive FrameOutcome (codec : Codec) (latch : Bool) (buf : List Byte) : FeedResult → Prop where
  | incomplete (before pairs data tail : List Byte) (diags : List Diag) (verified : Verified codec pairs data)
      (cut : CutPair tail) (holds : buf = before ++ START :: (pairs ++ tail)) :
      FrameOutcome codec latch buf (feedIncomplete latch (START :: (pairs ++ tail)) diags)
  | ready (before pairs data rest : List Byte) (diags : List Diag) (verified : Verified codec pairs data)
      (holds : buf = before ++ START :: (pairs ++ STOP :: rest)) :
      FrameOutcome codec latch buf (feedReady latch data rest diags)
  | mismatch (before pairs data failing rest : List Byte) (diags : List Diag) (verified : Verified codec pairs data)
      (fails : FailingPair codec failing) (holds : buf = before ++ START :: (pairs ++ (failing ++ rest))) :
      FrameOutcome codec latch buf (feedMismatch codec latch rest diags)

/-- Step 3 ends in one of these rows, by induction over its turns: the bytes from the current START to the
data position stay verified pairs that carry the payload extracted so far. A restart moves all of the
frame so far in front of the new one. -/
theorem collect_frameOutcome {codec : Codec} (latch : Bool) {buf before pairs data scan : List Byte}
    (diags : List Diag) (verified : Verified codec pairs data) (holds : buf = before ++ START :: (pairs ++ scan)) :
    FrameOutcome codec latch buf (collect codec latch (START :: (pairs ++ scan)) data diags scan) := by
  cases scanCase scan with
  | cut pair =>
    rw [collect_cut _ _ _ _ _ pair]
    exact .incomplete _ _ _ _ _ verified pair holds
  | stop rest =>
    rw [collect_stop]
    exact .ready _ _ _ _ _ verified holds
  | start rest =>
    have restarted : buf = (before ++ START :: pairs) ++ START :: ([] ++ rest) := by simp [holds]
    rw [collect_start]
    exact collect_frameOutcome latch diags .none restarted
  | escaped l c rest =>
    rw [collect_escaped]
    split
    next valid =>
      have regrouped : pairs ++ ESCAPE :: l :: c :: rest = (pairs ++ [ESCAPE, l, c]) ++ rest := by simp
      rw [regrouped] at holds ⊢
      exact collect_frameOutcome latch diags (verified.append (.escaped l c [] [] valid .none)) holds
    next invalid =>
      exact .mismatch _ _ _ _ _ _ verified (.escaped l c (Bool.eq_false_iff.mpr invalid)) holds
  | @plain t literal c rest =>
    rw [collect_plain _ _ _ _ _ literal]
    split
    next recovers =>
      obtain ⟨-, rfl⟩ := recovers
      have restarted : buf = (before ++ START :: (pairs ++ [t])) ++ START :: ([] ++ rest) := by simp [holds]
      exact collect_frameOutcome latch _ .none restarted
    next kept =>
      split
      next valid =>
        have regrouped : pairs ++ t :: c :: rest = (pairs ++ [t, c]) ++ rest := by simp
        rw [regrouped] at holds ⊢
        exact collect_frameOutcome latch diags (verified.append (.plain t c [] [] literal valid .none)) holds
      next invalid =>
        exact .mismatch _ _ _ _ _ _ verified (.plain t c literal (Bool.eq_false_iff.mpr invalid) kept) holds
termination_by scan.length

/-- An unlatched FEED on a buffer with a START ends in one of these rows: it collects from the first START
on, with no pair read yet (R145, R146). -/
theorem feedResult_frameOutcome {s : State} (unlatched : Unlatched s) (found : START ∈ s.buf) :
    FrameOutcome s.cfg.codec false s.buf (feedResult s.cfg.codec s.buf s.latch) := by
  obtain ⟨garbage, rest, holds, none⟩ := List.eq_append_cons_of_mem found
  have started := feedResult_start (latchAtFeed_eq_false.mpr unlatched) none rest
  rw [← holds] at started
  rw [started]
  exact collect_frameOutcome false [] .none holds

/-- What is not unlatched has a set latch that its codec keeps (R144). -/
theorem not_unlatched {s : State} : ¬Unlatched s ↔ s.cfg.codec ≠ .par2 ∧ s.latch = true := by
  rw [← latchAtFeed_eq_false, Bool.not_eq_false, latchAtFeed_eq_true]

/-- Settles O46: the latched FEED, the FEED that finds no START, and the rows of the last frame started. -/
theorem feedResultsLeaveTheirBuffers : Obligations.FeedResultsLeaveTheirBuffers := by
  intro s
  by_cases unlatched : Unlatched s
  · by_cases found : START ∈ s.buf
    · have outcome := feedResult_frameOutcome unlatched found
      generalize result : feedResult s.cfg.codec s.buf s.latch = r at outcome
      refine ⟨_, _, _, execFeed_answers_of_eq result, rfl, ?_⟩
      cases outcome with
      | incomplete before pairs data tail _ verified cut holds =>
        exact .inr (.inr (.inl ⟨rfl, unlatched, rfl, rfl, before, pairs, data, tail, verified, cut, rfl, holds⟩))
      | ready before pairs data rest _ verified holds =>
        exact .inr (.inr (.inr (.inl ⟨rfl, unlatched, rfl, before, pairs, verified, holds⟩)))
      | mismatch before pairs data failing rest _ verified fails holds =>
        rw [← List.append_assoc] at holds
        exact .inr (.inr (.inr (.inr ⟨rfl, unlatched, rfl, rfl, before, pairs, data, failing, rest, verified,
          fails, holds, rfl⟩)))
    · have answers := feedSeeksTheFirstStart.1 s unlatched found
      exact ⟨_, _, _, answers, rfl, .inr (.inl ⟨rfl, unlatched, found, rfl, rfl, rfl⟩)⟩
  · obtain ⟨keeps, set⟩ := not_unlatched.mp unlatched
    have answers := latchedFeedDecodesNothing.1 s keeps set
    exact ⟨_, _, _, answers, rfl, .inl ⟨rfl, keeps, set, rfl, rfl, set⟩⟩

end Sys2Proof.Machine
end

section
/-! PROOFS. A latched CRC4 or PAR1 instance delivers no frame while no RESET comes (R237): what its state keeps
from step to step, and the run. -/

namespace Sys2Proof.Machine

/-- A set latch that its codec keeps, with no RESET waiting to clear it (R22, R237). -/
structure LatchedOut (s : State) : Prop where
  keeps : s.cfg.codec ≠ .par2
  set : s.latch = true
  noReset : ∀ w ∈ s.commands, w ≠ encode .reset

/-- The instance goes on from `s` still latched out, and none of the responses it adds delivers a frame. -/
def DeliversNothing (s : State) (o : Host.Outcome State Fault Refusal) : Prop :=
  ∃ (t : State) (new : List Response), o = .next t ∧ LatchedOut t ∧ t.responses = s.responses ++ new ∧
    ∀ r ∈ new, r.code ≠ .frameReady

/-- A command writes the buffer and the latch only, apart from its response (R20). -/
theorem Effect.frame {s t : State} {i : Instr} {code : ResultCode} (effect : Effect s i t code) :
    t.cfg = s.cfg ∧ t.commands = s.commands ∧ t.responses = s.responses := by
  cases effect with
  | feed runs => cases runs <;> exact ⟨rfl, rfl, rfl⟩
  | reset | append | unchanged => exact ⟨rfl, rfl, rfl⟩

theorem LatchedOut.deliversNothing {s : State} (latched : LatchedOut s) : DeliversNothing s (.next s) :=
  ⟨s, [], rfl, latched, (List.append_nil _).symm, nofun⟩

/-- One answer other than FRAME_READY from a state that is latched out; the response does not enter the latch. -/
theorem Answers.deliversNothing {o : Host.Outcome State Fault Refusal} {s t : State} {code : ResultCode} {value : Word}
    {bytes : List Byte} (answers : Answers o t code value bytes) (latched : LatchedOut t)
    (responses : t.responses = s.responses) (silent : code ≠ .frameReady) : DeliversNothing s o := by
  obtain ⟨diags, rfl⟩ := answers
  obtain ⟨keeps, set, noReset⟩ := latched
  exact ⟨_, [{ code, value, bytes, diags }], rfl, ⟨keeps, set, noReset⟩, congrArg (· ++ _) responses,
    List.forall_mem_singleton.mpr silent⟩

/-- A command other than RESET keeps the latch set, and FRAME_READY would leave it clear (R22). -/
theorem exec_deliversNothing {s : State} {i : Instr} (latched : LatchedOut s) (noReset : i ≠ .reset) :
    DeliversNothing s (exec i s) := by
  obtain ⟨t, code, value, bytes, answers, effect⟩ := exec_effect i s
  obtain ⟨table, stays⟩ := latchFollowsItsTable i s t code value bytes answers
  have set : t.latch = true := stays latched.keeps latched.set noReset
  have silent : code ≠ .frameReady := by
    rintro rfl
    exact Bool.false_ne_true (table.symm.trans set)
  obtain ⟨cfg, commands, responses⟩ := effect.frame
  exact answers.deliversNothing ⟨cfg ▸ latched.keeps, set, commands ▸ latched.noReset⟩ responses silent

/-- A step of an instance that is latched out: no command waits, or the waiting word is not RESET's, or the word
is answered ILLEGAL. -/
theorem step_deliversNothing {s : State} (latched : LatchedOut s) : DeliversNothing s (step s) := by
  obtain ⟨-, idle⟩ | ⟨w, rest, waiting, meaning⟩ := step_cases s
  · exact idle ▸ latched.deliversNothing
  · obtain ⟨first, others⟩ := List.forall_mem_cons.mp (waiting ▸ latched.noReset)
    have accepted : LatchedOut { s with commands := rest } := ⟨latched.keeps, latched.set, others⟩
    obtain ⟨i, decodes, runs⟩ | ⟨e, -, refuses⟩ := meaning
    · have noReset : i ≠ .reset := by
        rintro rfl
        exact first (encodeOfDecode w .reset decodes).symm
      exact runs ▸ exec_deliversNothing accepted noReset
    · exact refuses ▸ (answerIllegal_answers _).deliversNothing accepted rfl nofun

/-- Every run of an instance that is latched out, by induction on its steps. -/
theorem run_deliversNothing (n : Nat) {s : State} (latched : LatchedOut s) :
    DeliversNothing s (Host.Core.run core n s) := by
  induction n generalizing s with
  | zero => exact latched.deliversNothing
  | succ n ih =>
    obtain ⟨t, new, next, latched', responses, silent⟩ := step_deliversNothing latched
    obtain ⟨u, new', ran, latched'', responses', silent'⟩ := ih latched'
    refine ⟨u, new ++ new', (run_succ next n).trans ran, latched'', ?_, List.forall_mem_append.mpr ⟨silent, silent'⟩⟩
    rw [responses', responses, List.append_assoc]

/-- Settles O15: such an instance is latched out, and every run keeps it so. -/
theorem latchedInstanceDeliversNothing : Obligations.LatchedInstanceDeliversNothing := by
  intro n s keeps set noReset
  obtain ⟨t, new, ran, latched, responses, silent⟩ := run_deliversNothing n ⟨keeps, set, noReset⟩
  exact ⟨t, new, ran, latched.set, responses, silent⟩

end Sys2Proof.Machine
end

section
/-! PROOFS. Every step answers one command, and power-on meets the invariant (R9, R10, R21, R51). -/

namespace Sys2Proof.Machine

/-- Settles O8: the step's idle arm. -/
theorem stepWithNoCommandChangesNothing : Obligations.StepWithNoCommandChangesNothing := by
  intro s empty
  obtain ⟨-, idle⟩ | ⟨w, rest, waiting, -⟩ := step_cases s
  · exact idle
  · cases waiting.symm.trans empty

/-- An answer is its state with one response more, of the answer's code, value and bytes (R51, R66). -/
theorem Answers.one_response {o : Host.Outcome State Fault Refusal} {t : State} {code : ResultCode} {value : Word}
    {bytes : List Byte} (answers : Answers o t code value bytes) :
    ∃ r, o = .next (t.pushResponse r) ∧ r.contract = (code, value, bytes) := by
  obtain ⟨diags, rfl⟩ := answers
  exact ⟨{ code, value, bytes, diags }, rfl, rfl⟩

/-- Settles O9: no command waits, or the oldest word's command answers, or the word is answered ILLEGAL. -/
theorem everyStepAnswersOneCommand : Obligations.EveryStepAnswersOneCommand := by
  intro s
  obtain ⟨empty, idle⟩ | ⟨w, rest, waiting, ⟨i, -, runs⟩ | ⟨e, -, refuses⟩⟩ := step_cases s
  · exact ⟨s, idle, rfl, .inl ⟨empty, rfl⟩⟩
  · obtain ⟨t, code, value, bytes, answers, effect⟩ := exec_effect i { s with commands := rest }
    obtain ⟨cfg, commands, responses⟩ := effect.frame
    obtain ⟨r, next, -⟩ := answers.one_response
    exact ⟨_, runs.trans next, cfg, .inr ⟨w, r, commands ▸ waiting, congrArg (· ++ [r]) responses⟩⟩
  · obtain ⟨r, next, -⟩ := (answerIllegal_answers { s with commands := rest }).one_response
    exact ⟨_, refuses.trans next, rfl, .inr ⟨w, r, waiting, rfl⟩⟩

/-- Every MAX_BUF allows an empty buffer (R12). -/
theorem admits_zero (m : MaxBuf) : m.Admits 0 := by
  cases m with
  | unbounded => trivial
  | finite limit => exact Nat.zero_le limit

theorem powerOn_inv {cfg : Config} (legal : cfg.wf = true) : Inv (State.powerOn cfg) :=
  ⟨legal, admits_zero cfg.maxBuf⟩

/-- Settles O13: `State.reset` is power-on with legal parameters. -/
theorem resetMeetsInvariant : Obligations.ResetMeetsInvariant :=
  ⟨powerOn_inv rfl, fun _ => powerOn_inv⟩

end Sys2Proof.Machine
end

section
/-! PROOFS. What an encoded payload looks like: check values are no tags, its length, and where its tags stand
(R126, R127, R129). -/

namespace Sys2Proof.Machine

/-- The tags are above every 4-bit value (R61). -/
theorem isTag_eq_false_of_le {b : Byte} (low : b.toNat ≤ 0x0F) : isTag b = false := by
  refine isTag_eq_false.mpr ⟨?_, ?_, ?_⟩ <;>
    · rintro rfl
      exact absurd low (by decide)

theorem checkValue_le (codec : Codec) (b : Byte) : (checkValue codec b).toNat ≤ 0x0F := by
  cases codec with
  | crc4 => exact checkValueCrc4_le b
  | par1 | par2 => exact (checkValuePar_le_one b).trans (by decide)

theorem isTag_checkValue (codec : Codec) (b : Byte) : isTag (checkValue codec b) = false :=
  isTag_eq_false_of_le (checkValue_le codec b)

/-- Settles O25: the bounds of the check values, below the tags. -/
theorem checkValuesAreNeverTags : Obligations.CheckValuesAreNeverTags := fun b =>
  ⟨checkValueCrc4_le b, checkValuePar_le_one b, checkValuePar_le_one b, fun codec => isTag_checkValue codec b⟩

/-- A payload byte gives two bytes, and an ESCAPE where it is in the escape set (R123). -/
theorem encodeByte_length_eq (codec : Codec) (b : Byte) :
    (encodeByte codec b).length = 2 + if b ∈ escapeSet codec then 1 else 0 := by
  rw [encodeByte_eq_append]
  split_ifs <;> rfl

theorem flatMap_encodeByte_length (codec : Codec) (payload : List Byte) :
    (payload.flatMap (encodeByte codec)).length =
      2 * payload.length + payload.countP (fun b => b ∈ escapeSet codec) := by
  induction payload with
  | nil => rfl
  | cons b payload ih =>
    rw [List.flatMap_cons, List.length_append, encodeByte_length_eq, ih, List.length_cons, List.countP_cons]
    simp only [decide_eq_true_eq]
    omega

/-- Settles O33: the payload's bytes between START and STOP. -/
theorem encodedLength : Obligations.EncodedLength := by
  intro codec payload
  rw [encodePayload, List.length_append, List.length_append, flatMap_encodeByte_length, List.length_singleton,
    List.length_singleton]
  omega

/-- Every tag is escaped, whatever the codec (R121). -/
theorem mem_escapeSet_of_isTag {b : Byte} (tag : isTag b = true) (codec : Codec) : b ∈ escapeSet codec := by
  have tags : b = START ∨ b = STOP ∨ b = ESCAPE := by simpa [isTag] using tag
  cases codec with
  | crc4 => exact (mem_escapeSet_crc4 b).mpr tags
  | par1 => exact (mem_escapeSet_of_parity (.inl rfl) b).mpr (by tauto)
  | par2 => exact (mem_escapeSet_of_parity (.inr rfl) b).mpr (by tauto)

theorem isTag_eq_false_of_not_mem {codec : Codec} {b : Byte} (fresh : b ∉ escapeSet codec) : isTag b = false :=
  Bool.eq_false_iff.mpr fun tag => fresh (mem_escapeSet_of_isTag tag codec)

/-- How a tag `b` can stand at index `i` inside a frame: behind an ESCAPE, or as the ESCAPE of a pair (R127). -/
def EscapedAt (codec : Codec) (bytes : List Byte) (i : Nat) (b : Byte) : Prop :=
  (∃ j, i = j + 1 ∧ bytes[j]? = some ESCAPE) ∨
    (b = ESCAPE ∧ ∃ d ∈ escapeSet codec, bytes[i + 1]? = some d ∧ bytes[i + 2]? = some (checkValue codec d))

theorem EscapedAt.prepend {codec : Codec} {bytes : List Byte} {i : Nat} {b : Byte} (front : List Byte)
    (escaped : EscapedAt codec bytes i b) : EscapedAt codec (front ++ bytes) (front.length + i) b := by
  have shifted (k : Nat) : (front ++ bytes)[front.length + k]? = bytes[k]? := by
    rw [List.getElem?_append_right (Nat.le_add_right ..), Nat.add_sub_cancel_left]
  obtain ⟨j, rfl, escape⟩ | ⟨rfl, d, tagged, byte, check⟩ := escaped
  · exact .inl ⟨front.length + j, rfl, (shifted j).trans escape⟩
  · exact .inr ⟨rfl, d, tagged, (shifted (i + 1)).trans byte, (shifted (i + 2)).trans check⟩

theorem EscapedAt.extend {codec : Codec} {bytes : List Byte} {i : Nat} {b : Byte} (back : List Byte)
    (escaped : EscapedAt codec bytes i b) : EscapedAt codec (bytes ++ back) i b := by
  have kept : ∀ {k : Nat} {x : Byte}, bytes[k]? = some x → (bytes ++ back)[k]? = some x := by
    intro k x found
    obtain ⟨within, rfl⟩ := List.getElem?_eq_some_iff.mp found
    rw [List.getElem?_append_left within, found]
  obtain ⟨j, rfl, escape⟩ | ⟨rfl, d, tagged, byte, check⟩ := escaped
  · exact .inl ⟨j, rfl, kept escape⟩
  · exact .inr ⟨rfl, d, tagged, kept byte, kept check⟩

/-- In pairs of the grammar every tag stands so: a byte that is not escaped and a check value are no tags. -/
theorem IsPairs.escapedAt {codec : Codec} {pairs : List Byte} (grammar : IsPairs codec pairs) {i : Nat} {b : Byte}
    (found : pairs[i]? = some b) (tag : isTag b = true) : EscapedAt codec pairs i b := by
  induction grammar generalizing i with
  | none => cases found
  | plain d rest fresh _ ih =>
    match i with
    | 0 =>
      cases found
      rw [isTag_eq_false_of_not_mem fresh] at tag
      cases tag
    | 1 =>
      cases found
      rw [isTag_checkValue] at tag
      cases tag
    | i + 2 =>
      rw [Nat.add_comm]
      exact (ih found).prepend [d, checkValue codec d]
  | escaped d rest tagged _ ih =>
    match i with
    | 0 =>
      cases found
      exact .inr ⟨rfl, d, tagged, rfl, rfl⟩
    | 1 => exact .inl ⟨0, rfl, rfl⟩
    | 2 =>
      cases found
      rw [isTag_checkValue] at tag
      cases tag
    | i + 3 =>
      rw [Nat.add_comm]
      exact (ih found).prepend [ESCAPE, d, checkValue codec d]

theorem encodePayload_eq (codec : Codec) (payload : List Byte) :
    encodePayload codec payload = START :: (payload.flatMap (encodeByte codec) ++ [STOP]) := rfl

/-- Settles O34: index 0 is START, the last index is STOP, and between them stand pairs. -/
theorem encodedTagsAreEscaped : Obligations.EncodedTagsAreEscaped := by
  intro codec payload i b found tag
  rw [encodePayload_eq] at found ⊢
  generalize pairs_eq : payload.flatMap (encodeByte codec) = pairs at found ⊢
  have grammar : IsPairs codec pairs := pairs_eq ▸ isPairs_flatMap_encodeByte codec payload
  cases i with
  | zero => cases found; exact .inl ⟨rfl, rfl⟩
  | succ k =>
    rw [List.getElem?_cons_succ] at found
    by_cases inside : k < pairs.length
    · rw [List.getElem?_append_left inside] at found
      have escaped := ((grammar.escapedAt found tag).extend [STOP]).prepend [START]
      rw [List.length_singleton, Nat.add_comm] at escaped
      exact .inr (.inr escaped)
    · rw [List.getElem?_append_right (not_lt.mp inside), List.getElem?_singleton] at found
      split at found
      next last =>
        cases found
        have length : (START :: (pairs ++ [STOP])).length = pairs.length + 2 := by simp
        exact .inr (.inl ⟨by omega, rfl⟩)
      next => cases found

end Sys2Proof.Machine
end

section
/-! PROOFS. CRC-4 division is polynomial division: by linearity, from the single bits (R101). -/

namespace Sys2Proof.Machine

/-- A vector clear above bit `k` and in bit `k` is clear from bit `k` on. -/
theorem getLsbD_eq_false_from {w k : Nat} {x : BitVec w} (above : ∀ i, k < i → x.getLsbD i = false)
    (top : x.getLsbD k = false) (i : Nat) (le : k ≤ i) : x.getLsbD i = false := by
  obtain rfl | lt := le.eq_or_lt
  · exact top
  · exact above i lt

/-- What holds of 0 and of every single bit, and is kept by XOR, holds of every bit vector: by induction on how
many of its low bits may be set. -/
theorem xor_induction {w : Nat} {P : BitVec w → Prop} (zero : P 0) (bit : ∀ k < w, P (BitVec.twoPow w k))
    (xor : ∀ x y, P x → P y → P (x ^^^ y)) (v : BitVec w) : P v := by
  have below (k : Nat) : ∀ u : BitVec w, (∀ i, k ≤ i → u.getLsbD i = false) → P u := by
    induction k with
    | zero =>
      intro u clear
      have u_eq : u = 0 := BitVec.eq_of_getLsbD_eq fun i _ => by simp [clear]
      exact u_eq ▸ zero
    | succ k ih =>
      intro u clear
      cases top : u.getLsbD k with
      | false => exact ih u (getLsbD_eq_false_from clear top)
      | true =>
        have within : k < w := BitVec.lt_of_getLsbD top
        have above (i : Nat) (lt : k < i) : (u ^^^ BitVec.twoPow w k).getLsbD i = false := by
          simp [clear i lt, lt.ne]
        have rest : P (u ^^^ BitVec.twoPow w k) := ih _ (getLsbD_eq_false_from above (by simp [top, within]))
        have whole : u = (u ^^^ BitVec.twoPow w k) ^^^ BitVec.twoPow w k := by
          rw [BitVec.xor_assoc, BitVec.xor_self, BitVec.xor_zero]
        exact whole ▸ xor _ _ rest (bit k within)
  exact below w v fun i le => BitVec.getLsbD_of_ge v i le

/-- A sum of chosen polynomials is linear in the choice. -/
theorem chosenSum_xor (m : Nat → BitVec 12) (p q : Byte) (l : List Nat) (x y : BitVec 12) :
    l.foldl (fun acc i => if (p ^^^ q).getLsbD i then acc ^^^ m i else acc) (x ^^^ y) =
      l.foldl (fun acc i => if p.getLsbD i then acc ^^^ m i else acc) x ^^^
        l.foldl (fun acc i => if q.getLsbD i then acc ^^^ m i else acc) y := by
  induction l generalizing x y with
  | nil => rfl
  | cons i l ih =>
    have turn : (if (p ^^^ q).getLsbD i then (x ^^^ y) ^^^ m i else x ^^^ y) =
        (if p.getLsbD i then x ^^^ m i else x) ^^^ (if q.getLsbD i then y ^^^ m i else y) := by
      rw [BitVec.getLsbD_xor]
      have twice : (x ^^^ m i) ^^^ (y ^^^ m i) = (x ^^^ y) ^^^ (m i ^^^ m i) := by ac_rfl
      match p.getLsbD i, q.getLsbD i with
      | false, false => rfl
      | false, true => exact BitVec.xor_assoc ..
      | true, false => show (x ^^^ y) ^^^ m i = (x ^^^ m i) ^^^ y; ac_rfl
      | true, true => show x ^^^ y = (x ^^^ m i) ^^^ (y ^^^ m i); rw [twice, BitVec.xor_self, BitVec.xor_zero]
    rw [List.foldl_cons, List.foldl_cons, List.foldl_cons, turn, ih]

theorem timesG_xor (p q : Byte) : timesG (p ^^^ q) = timesG p ^^^ timesG q :=
  chosenSum_xor (fun i => 0b10011#12 <<< i) p q (List.range 8) 0 0

/-- A multiple of g has remainder 0: every multiple is a sum of shifts of g. -/
theorem crcdiv12_timesG (q : Byte) : crcdiv12 (timesG q) = 0 := by
  have shifts : ∀ k : Fin 8, crcdiv12 (timesG (BitVec.twoPow 8 k)) = 0 := by decide +kernel
  induction q using xor_induction with
  | zero => decide +kernel
  | bit k within => exact shifts ⟨k, within⟩
  | xor p q hp hq => rw [timesG_xor, crcdiv12_xor, hp, hq]; rfl

/-- The quotients of the powers of x, of which every quotient is a sum. -/
theorem exists_quotient_twoPow :
    ∀ k : Fin 12, ∃ q : Byte, BitVec.twoPow 12 k = timesG q ^^^ (crcdiv12 (BitVec.twoPow 12 k)).setWidth 12 := by
  decide +kernel

/-- Every dividend is a multiple of g and its remainder. -/
theorem exists_quotient (v : BitVec 12) : ∃ q : Byte, v = timesG q ^^^ (crcdiv12 v).setWidth 12 := by
  induction v using xor_induction with
  | zero => exact ⟨0, by decide +kernel⟩
  | bit k within => exact exists_quotient_twoPow ⟨k, within⟩
  | xor v w hv hw =>
    obtain ⟨p, hp⟩ := hv
    obtain ⟨q, hq⟩ := hw
    refine ⟨p ^^^ q, ?_⟩
    calc
      v ^^^ w = (timesG p ^^^ (crcdiv12 v).setWidth 12) ^^^ (timesG q ^^^ (crcdiv12 w).setWidth 12) := by
        rw [← hp, ← hq]
      _ = timesG (p ^^^ q) ^^^ (crcdiv12 (v ^^^ w)).setWidth 12 := by
        rw [timesG_xor, crcdiv12_xor, BitVec.setWidth_xor]
        ac_rfl

/-- Settles O19: a quotient exists, and every quotient leaves a value that is its own remainder. -/
theorem crcDivisionIsPolynomialRemainder : Obligations.CrcDivisionIsPolynomialRemainder := by
  intro v r
  constructor
  · rintro rfl
    exact exists_quotient v
  · rintro ⟨q, rfl⟩
    rw [crcdiv12_xor, crcdiv12_timesG, crcdiv12_small]
    exact BitVec.zero_xor

end Sys2Proof.Machine
end

section
/-! PROOFS. CRC-4's table gives every remainder, and with it every verdict (R103, R112). -/

namespace Sys2Proof.Machine

/-- R112: the table's cell is the remainder of the byte in the data position. -/
theorem crcdiv12_dividend : ∀ b : Byte, crcdiv12 (dividend b) = crcCell b := by decide +kernel

/-- A check byte is its own low nibble below a data byte of one nibble, so the table gives its remainder too. -/
theorem crcdiv12_checkByte (c : Byte) : crcdiv12 (c.setWidth 12) = crcCell (c >>> 4) ^^^ c.setWidth 4 := by
  have nibbles : c.setWidth 12 = dividend (c >>> 4) ^^^ (c.setWidth 4).setWidth 12 := by
    revert c
    decide +kernel
  rw [nibbles, crcdiv12_xor, crcdiv12_dividend, crcdiv12_small]

theorem checkValue_crc4_eq (b : Byte) : checkValue .crc4 b = (crcCell b).setWidth 8 :=
  congrArg (·.setWidth 8) (crcdiv12_dividend b)

/-- R112: the check value is linear over GF(2). -/
theorem checkValue_crc4_xor (a b : Byte) :
    checkValue .crc4 (a ^^^ b) = checkValue .crc4 a ^^^ checkValue .crc4 b := by
  simp only [checkValue, checkValueCrc4, dividend_xor, crcdiv12_xor, BitVec.setWidth_xor]

/-- A remainder is not changed by writing it as a byte. -/
theorem setWidth_remainder_inj {x y : BitVec 4} : x.setWidth 8 = y.setWidth 8 ↔ x = y := by
  revert x y
  decide

/-- Each remainder stands in sixteen cells of the table. -/
theorem countBytes_crcCell (r : BitVec 4) : countBytes (fun b => crcCell b = r) = 16 := by
  revert r
  decide +kernel

/-- Each remainder is that of sixteen check bytes. -/
theorem countBytes_checkByte (r : BitVec 4) : countBytes (fun c => r = crcCell (c >>> 4) ^^^ c.setWidth 4) = 16 := by
  revert r
  decide +kernel

/-- Settles O20: the table's cells, each remainder's number of cells, and linearity. -/
theorem crcCheckValuesAreTheTable : Obligations.CrcCheckValuesAreTheTable := by
  refine ⟨checkValue_crc4_eq, fun r => ?_, checkValue_crc4_xor, by decide +kernel⟩
  simp only [checkValue_crc4_eq, setWidth_remainder_inj]
  exact countBytes_crcCell r

/-- CRC-4 `verify`, read off the table (R103, R112). -/
theorem verify_crc4_iff (b c : Byte) :
    verify .crc4 b c = true ↔ crcCell b = crcCell (c >>> 4) ^^^ c.setWidth 4 := by
  rw [verify_crc4, verifyCrc4_iff, crcdiv12_dividend, crcdiv12_checkByte]

/-- R103: a check byte verifies exactly if its remainder is the check value. -/
theorem verify_crc4_iff_remainder (b c : Byte) :
    verify .crc4 b c = true ↔ (crcdiv12 (c.setWidth 12)).setWidth 8 = checkValue .crc4 b := by
  rw [verify_crc4_iff, checkValue_crc4_eq, crcdiv12_checkByte, setWidth_remainder_inj, eq_comm]

/-- A remainder as a check byte is its own remainder. -/
theorem crcdiv12_remainder (r : BitVec 4) : crcdiv12 ((r.setWidth 8).setWidth 12) = r := by
  have widened : (r.setWidth 8).setWidth 12 = r.setWidth 12 := by
    revert r
    decide
  rw [widened, crcdiv12_small]

/-- Of the check bytes below 16 only the check value verifies (R103). -/
theorem verify_crc4_iff_of_low {b c : Byte} (low : c.toNat < 16) :
    verify .crc4 b c = true ↔ c = checkValue .crc4 b := by
  have nibble : c = (c.setWidth 4).setWidth 8 := by
    apply BitVec.eq_of_toNat_eq
    simp only [BitVec.toNat_setWidth]
    omega
  rw [verify_crc4_iff_remainder, nibble, crcdiv12_remainder]

theorem countBytes_verify_crc4 (b : Byte) : countBytes (fun c => verify .crc4 b c) = 16 := by
  have read (c : Byte) : verify .crc4 b c = decide (crcCell b = crcCell (c >>> 4) ^^^ c.setWidth 4) := by
    rw [Bool.eq_iff_iff, decide_eq_true_iff]
    exact verify_crc4_iff b c
  simp only [read]
  exact countBytes_checkByte (crcCell b)

/-- Settles O21: the verdicts in general, and the listed ones read off the table. -/
theorem crcVerifyAcceptsSixteenSyndromes : Obligations.CrcVerifyAcceptsSixteenSyndromes := by
  refine ⟨fun _ _ => verify_crc4_iff_of_low, verify_crc4_iff_remainder, countBytes_verify_crc4, ?_⟩
  simp only [verify_crc4_iff]
  decide +kernel

end Sys2Proof.Machine
end

section
/-! PROOFS. The flips that CRC-4 detects (R108). -/

namespace Sys2Proof.Machine

/-- The flips of a byte and its check value that pass: those with equal remainders (R108). -/
theorem verifyCrc4_flipped_iff (b e f : Byte) :
    verify .crc4 (b ^^^ e) (checkValue .crc4 b ^^^ f) = true ↔ crcdiv12 (dividend e) = crcdiv12 (f.setWidth 12) := by
  rw [verify_crc4, verifyCrc4_iff, dividend_xor, crcdiv12_xor, crcdiv12_dividend b, checkValue_crc4_eq,
    BitVec.setWidth_xor, crcdiv12_xor, crcdiv12_remainder, BitVec.xor_right_inj]

theorem popcount_eq_zero_iff : ∀ b : Byte, popcount b = 0 ↔ b = 0#8 := by decide +kernel

theorem popcount_eq_one_iff : ∀ b : Byte, popcount b = 1 ↔ ∃ k < 8, b = 1#8 <<< k := by decide +kernel

/-- Two flips in the data byte alone, or in the check byte alone, change the remainder. -/
theorem remainder_of_two_flips :
    ∀ e : Byte, popcount e = 2 → crcdiv12 (dividend e) ≠ 0 ∧ crcdiv12 (e.setWidth 12) ≠ 0 := by
  decide +kernel

/-- One flip in each byte: the remainders of data bit `j` and check bit `k`. -/
theorem remainder_of_bits : ∀ j < 8, ∀ k < 8,
    (crcdiv12 (dividend (1#8 <<< j)) = crcdiv12 ((1#8 <<< k).setWidth 12) ↔ j < 4 ∧ k = j + 4) := by
  decide +kernel

/-- A single flipped bit is one position. -/
theorem bit_inj : ∀ j < 8, ∀ k < 8, 1#8 <<< j = 1#8 <<< k → j = k := by decide +kernel

theorem bit_ne_zero : ∀ k < 8, 1#8 <<< k ≠ 0 := by decide +kernel

/-- A single flip changes the remainder. -/
theorem remainder_of_bit :
    ∀ k < 8, crcdiv12 (dividend (1#8 <<< k)) ≠ 0 ∧ crcdiv12 ((1#8 <<< k).setWidth 12) ≠ 0 := by
  decide +kernel

/-- A burst is shorter than g, so g does not divide it at any position. -/
theorem remainder_of_burst :
    ∀ j < 9, ∀ burst : BitVec 4, burst ≠ 0 → crcdiv12 (burst.setWidth 12 <<< j) ≠ 0 := by
  decide +kernel

theorem crcdiv12_dividend_zero : crcdiv12 (dividend 0#8) = 0 := by decide +kernel

theorem crcdiv12_check_zero : crcdiv12 ((0#8).setWidth 12) = 0 := by decide +kernel

/-- Two flips, by how many of them are in the data byte. -/
theorem twoFlips_pass_iff {e f : Byte} (two : popcount e + popcount f = 2) :
    crcdiv12 (dividend e) = crcdiv12 (f.setWidth 12) ↔ ∃ k < 4, e = 1#8 <<< k ∧ f = 1#8 <<< (k + 4) := by
  have split : (popcount e = 0 ∧ popcount f = 2) ∨ (popcount e = 1 ∧ popcount f = 1) ∨
      (popcount e = 2 ∧ popcount f = 0) := by omega
  obtain ⟨none, both⟩ | ⟨one, one'⟩ | ⟨both, none⟩ := split
  · obtain rfl := (popcount_eq_zero_iff e).mp none
    refine iff_of_false (fun same => (remainder_of_two_flips f both).2 (same.symm.trans crcdiv12_dividend_zero)) ?_
    rintro ⟨k, lt, flip, -⟩
    exact bit_ne_zero k (by omega) flip.symm
  · obtain ⟨j, j_lt, rfl⟩ := (popcount_eq_one_iff e).mp one
    obtain ⟨k, k_lt, rfl⟩ := (popcount_eq_one_iff f).mp one'
    rw [remainder_of_bits j j_lt k k_lt]
    constructor
    · rintro ⟨low, rfl⟩
      exact ⟨j, low, rfl, rfl⟩
    · rintro ⟨i, low, data, check⟩
      obtain rfl := bit_inj j j_lt i (by omega) data
      exact ⟨low, bit_inj k k_lt (j + 4) (by omega) check⟩
  · obtain rfl := (popcount_eq_zero_iff f).mp none
    refine iff_of_false (fun same => (remainder_of_two_flips e both).1 (same.trans crcdiv12_check_zero)) ?_
    rintro ⟨k, lt, -, flip⟩
    exact bit_ne_zero (k + 4) (by omega) flip.symm

/-- Settles O22: by linearity only the flips' own remainders decide. -/
theorem crcDetectsErrors : Obligations.CrcDetectsErrors := by
  refine ⟨fun b k lt => Bool.eq_false_iff.mpr fun passes => ?_,
    fun b k lt => Bool.eq_false_iff.mpr fun passes => ?_, fun v burst j nonzero le valid => ?_,
    fun b e f two => (verifyCrc4_flipped_iff b e f).trans (twoFlips_pass_iff two)⟩
  · have same := (verifyCrc4_flipped_iff b (1#8 <<< k) 0#8).mp (by rwa [BitVec.xor_zero])
    exact (remainder_of_bit k lt).1 (same.trans crcdiv12_check_zero)
  · have same := (verifyCrc4_flipped_iff b 0#8 (1#8 <<< k)).mp (by rwa [BitVec.xor_zero])
    exact (remainder_of_bit k lt).2 (same.symm.trans crcdiv12_dividend_zero)
  · rw [crcdiv12_xor, valid]
    exact fun divides => remainder_of_burst j (by omega) burst nonzero (BitVec.zero_xor.symm.trans divides)

end Sys2Proof.Machine
end

section
/-! PROOFS. Per-byte drive keeps the buffer settled: empty, or a frame cut short (R49, R157, R159, R234). -/

namespace Sys2Proof.Machine

/-- A frame of which the rest is still to come: START, verified pairs, and a pair cut short or nothing (R154). -/
def CutFrame (codec : Codec) (buf : List Byte) : Prop :=
  ∃ pairs data tail, Verified codec pairs data ∧ CutPair tail ∧ buf = START :: (pairs ++ tail)

theorem CutFrame.waits {s : State} (frame : CutFrame s.cfg.codec s.buf) (unlatched : Unlatched s) :
    Answers (exec .feed s) { s with latch := false } .incomplete 0 [] := by
  obtain ⟨pairs, data, tail, verified, cut, holds⟩ := frame
  exact cutFrameWaits s pairs data tail unlatched verified cut holds

/-- What INCOMPLETE says of the state it leaves (R29, R154). -/
theorem cutFrame_of_incomplete {s t : State} {bytes : List Byte}
    (answers : Answers (exec .feed s) t .incomplete 0 bytes) : CutFrame t.cfg.codec t.buf ∧ t.latch = false := by
  obtain ⟨cfg, -, -⟩ := answers.effect.frame
  obtain ⟨t', code, bytes', answers', -, rows⟩ := feedResultsLeaveTheirBuffers s
  obtain ⟨rfl, rfl, -, rfl⟩ := answers.contract_unique answers'
  obtain ⟨code, -⟩ | ⟨code, -⟩ | ⟨-, -, -, clear, _, pairs, data, tail, verified, cut, holds, -⟩ | ⟨code, -⟩ |
    ⟨code, -⟩ := rows
  case inr.inr.inl => exact ⟨⟨pairs, data, tail, cfg ▸ verified, cut, holds⟩, clear⟩
  all_goals cases code

/-- Settles O47: INCOMPLETE leaves a cut frame and a clear latch, and such a state waits. -/
theorem feedAfterIncompleteRepeats : Obligations.FeedAfterIncompleteRepeats := by
  intro s t answers
  obtain ⟨frame, clear⟩ := cutFrame_of_incomplete answers
  have same : { t with latch := false } = t := State.eq_of_fields rfl rfl clear.symm rfl rfl
  simpa only [same] using frame.waits (.inl clear)

/-- A settled buffer is empty or holds a cut frame (R157). -/
theorem settled_iff {s : State} : Settled s ↔ s.buf = [] ∨ CutFrame s.cfg.codec s.buf := by
  constructor
  · rintro (empty | waits)
    · exact .inl empty
    · exact .inr (cutFrame_of_incomplete waits).1
  · rintro (empty | frame)
    · exact .inl empty
    · have unlatched : Unlatched { s with latch := false } := .inl rfl
      exact .inr (CutFrame.waits (s := { s with latch := false }) frame unlatched)

/-- The FEED waits, or leaves nothing for another FEED to decide (R157). -/
def FeedResult.Settles (r : FeedResult) : Prop := r.code = .incomplete ∨ r.buf = []

/-- One byte more completes a cut pair at most: it leaves no byte behind. -/
theorem collect_snoc_settles {tail : List Byte} (cut : CutPair tail) (codec : Codec) (latch : Bool)
    (frame data : List Byte) (diags : List Diag) (a : Byte) :
    (collect codec latch frame data diags (tail ++ [a])).Settles := by
  have ended (frame data : List Byte) (diags : List Diag) : (collect codec latch frame data diags []).Settles :=
    .inl (by rw [collect_nil]; rfl)
  have failed : (feedMismatch codec latch [] diags).Settles := .inr (ite_self _)
  cases cut with
  | none =>
    generalize scan_eq : [] ++ [a] = scan
    cases scanCase scan with
    | cut pair => exact .inl (by rw [collect_cut _ _ _ _ _ pair]; rfl)
    | stop rest =>
      cases scan_eq
      exact .inr (by rw [collect_stop]; rfl)
    | start rest =>
      cases scan_eq
      rw [collect_start]
      exact ended ..
    | escaped | plain => cases scan_eq
  | plain t literal =>
    rw [List.singleton_append, collect_plain _ _ _ _ _ literal]
    split_ifs
    · exact ended ..
    · exact ended ..
    · exact failed
  | escape => exact .inl (by rw [List.singleton_append, collect_cut _ _ _ _ _ (.escaped a)]; rfl)
  | escaped l =>
    show (collect codec latch frame data diags [ESCAPE, l, a]).Settles
    rw [collect_escaped]
    split_ifs
    · exact ended ..
    · exact failed

/-- FEED on a settled buffer and one byte more. -/
theorem feedResult_snoc_settles {codec : Codec} {buf : List Byte} (settled : buf = [] ∨ CutFrame codec buf)
    (latch : Bool) (a : Byte) : (feedResult codec (buf ++ [a]) latch).Settles := by
  by_cases set : latchAtFeed codec latch = true
  · obtain ⟨keeps, rfl⟩ := latchAtFeed_eq_true.mp set
    exact .inr (by rw [feedResult_latched keeps])
  have clear : latchAtFeed codec latch = false := Bool.eq_false_iff.mpr set
  obtain rfl | ⟨pairs, data, tail, verified, cut, rfl⟩ := settled
  · by_cases start : a = START
    · subst start
      exact .inl (by rw [feedResult_start clear List.not_mem_nil, collect_nil]; rfl)
    · have none : START ∉ [a] := fun mem => start (List.mem_singleton.mp mem).symm
      exact .inr (by rw [List.nil_append, feedResult_noStart clear none])
  · have started := feedResult_start clear List.not_mem_nil (pairs ++ (tail ++ [a]))
    rw [collect_verified verified] at started
    rw [List.cons_append, List.append_assoc, ← List.nil_append (START :: _), started]
    exact collect_snoc_settles cut ..

/-- The same after `BufAppend`, which may have cleared a full buffer first (R41). -/
theorem feedResult_appended_settles {s : State} (settled : Settled s) (a : Byte) :
    (feedResult s.cfg.codec (bufAppend s a).buf s.latch).Settles := by
  rw [bufAppend_buf]
  obtain ⟨-, cleared⟩ | ⟨-, appends⟩ := appended_cases s.cfg.maxBuf s.buf a
  · rw [cleared]
    exact feedResult_snoc_settles (.inl rfl) s.latch a
  · rw [appends]
    exact feedResult_snoc_settles (settled_iff.mp settled) s.latch a

/-- Settles O48: RXB is FEED-body on the appended buffer, and what waits after it is a cut frame. -/
theorem rxbKeepsTheBufferSettled : Obligations.RxbKeepsTheBufferSettled := by
  intro s a settled
  refine ⟨_, _, _, feedBody_answers _ (bufAppend s a), ?_, feedResult_appended_settles settled a⟩
  obtain waits | empty := feedResult_appended_settles settled a
  · have answers := execFeed_answers_of_eq (s := bufAppend s a) rfl
    have incomplete := waits ▸ answers
    exact settled_iff.mpr (.inr (cutFrame_of_incomplete incomplete).1)
  · exact .inl empty

/-- A byte that is neither in the buffer nor appended is not in the buffer afterwards. -/
theorem not_mem_appended {buf : List Byte} {a b : Byte} (absent : b ∉ buf) (other : b ≠ a) (maxBuf : MaxBuf) :
    b ∉ appended maxBuf buf a := by
  obtain ⟨-, cleared⟩ | ⟨-, appends⟩ := appended_cases maxBuf buf a
  · simpa [cleared] using other
  · simp [appends, absent, other]

/-- Settles O51: the append brings no START, so FEED-body finds none. -/
theorem garbageByteLatchesPerByteDrive : Obligations.GarbageByteLatchesPerByteDrive := by
  intro s a unlatched none other
  have none_after : START ∉ (bufAppend s a).buf := not_mem_appended none other.symm s.cfg.maxBuf
  have result := feedResult_noStart (latchAtFeed_eq_false.mpr unlatched) none_after
  rw [latchOnNoStart_false] at result
  exact feedBody_answers_of_eq (s := bufAppend s a) result (appendDiags s.cfg.maxBuf s.buf)

end Sys2Proof.Machine
end

section
/-! PROOFS. The round trip: commands that store a frame byte after byte, and the one that delivers it (R158, R159). -/

namespace Sys2Proof.Machine

/-- The reassembler verifies what the encoder emits, and reads the payload from it. -/
theorem verified_flatMap_encodeByte (codec : Codec) (payload : List Byte) :
    Verified codec (payload.flatMap (encodeByte codec)) payload := by
  induction payload with
  | nil => exact .none
  | cons b payload ih =>
    rw [List.flatMap_cons]
    have valid := verify_checkValue codec b
    by_cases tagged : b ∈ escapeSet codec
    · rw [encodeByte_escaped tagged]
      exact .escaped b _ _ _ valid ih
    · rw [encodeByte_plain tagged]
      have literal : isTag b = false := isTag_eq_false_of_not_mem tagged
      exact .plain b _ _ _ literal valid ih

/-- Pairs of the grammar, broken off anywhere. -/
theorem IsPairs.cut_of_prefix {codec : Codec} {pairs : List Byte} (grammar : IsPairs codec pairs) {front : List Byte}
    (part : front <+: pairs) :
    ∃ whole data tail, Verified codec whole data ∧ CutPair tail ∧ front = whole ++ tail := by
  induction grammar generalizing front with
  | none => exact ⟨[], [], [], .none, .none, List.prefix_nil.mp part⟩
  | plain d rest fresh _ ih =>
    have literal : isTag d = false := isTag_eq_false_of_not_mem fresh
    match front with
    | [] => exact ⟨[], [], [], .none, .none, rfl⟩
    | [x] =>
      obtain ⟨rfl, -⟩ := List.cons_prefix_cons.mp part
      exact ⟨[], [], [x], .none, .plain x literal, rfl⟩
    | x :: y :: front =>
      simp only [List.cons_prefix_cons] at part
      obtain ⟨rfl, rfl, within⟩ := part
      obtain ⟨whole, data, tail, verified, cut, rfl⟩ := ih within
      exact ⟨_, _, tail, .plain x _ whole data literal (verify_checkValue codec x) verified, cut, rfl⟩
  | escaped d rest tagged _ ih =>
    match front with
    | [] => exact ⟨[], [], [], .none, .none, rfl⟩
    | [x] =>
      obtain ⟨rfl, -⟩ := List.cons_prefix_cons.mp part
      exact ⟨[], [], [ESCAPE], .none, .escape, rfl⟩
    | [x, y] =>
      obtain ⟨rfl, -⟩ := List.cons_prefix_cons.mp part
      exact ⟨[], [], [ESCAPE, y], .none, .escaped y, rfl⟩
    | x :: y :: z :: front =>
      simp only [List.cons_prefix_cons] at part
      obtain ⟨rfl, rfl, rfl, within⟩ := part
      obtain ⟨whole, data, tail, verified, cut, rfl⟩ := ih within
      exact ⟨_, _, tail, .escaped y _ whole data (verify_checkValue codec y) verified, cut, rfl⟩

/-- The frame of a payload without its STOP. -/
def openFrame (codec : Codec) (payload : List Byte) : List Byte := START :: payload.flatMap (encodeByte codec)

theorem encodePayload_eq_openFrame (codec : Codec) (payload : List Byte) :
    encodePayload codec payload = openFrame codec payload ++ [STOP] := rfl

/-- Until its STOP comes, a frame being received is a cut frame. -/
theorem cutFrame_of_prefix {codec : Codec} {payload buf : List Byte} (nonempty : buf ≠ [])
    (part : buf <+: openFrame codec payload) : CutFrame codec buf := by
  obtain ⟨b, front, rfl⟩ := List.exists_cons_of_ne_nil nonempty
  obtain ⟨rfl, within⟩ := List.cons_prefix_cons.mp part
  obtain ⟨whole, data, tail, verified, cut, rfl⟩ := (isPairs_flatMap_encodeByte codec payload).cut_of_prefix within
  exact ⟨whole, data, tail, verified, cut, rfl⟩

/-- A run goes on from where an earlier part of it ended. -/
theorem run_add {m : Nat} {s t : State} (first : Host.Core.run core m s = .next t) (n : Nat) :
    Host.Core.run core (m + n) s = Host.Core.run core n t := by
  induction m generalizing s with
  | zero =>
    cases first
    rw [Nat.zero_add]
  | succ m ih =>
    rw [Nat.succ_add]
    cases stepped : step s with
    | next u =>
      rw [run_succ stepped] at first ⊢
      exact ih first
    | fault r => cases r
    | refused r =>
      have stuck : core.step s = .refused r := stepped
      simp only [Host.Core.run, stuck] at first
      cases first

/-- Only the parameters and the latch enter. -/
theorem Unlatched.of_eq {s t : State} (unlatched : Unlatched s) (cfg : t.cfg = s.cfg) (latch : t.latch = s.latch) :
    Unlatched t := by
  unfold Unlatched
  rw [cfg, latch]
  exact unlatched

/-- The step of a command, by what the command answers: it accepts the word and adds one response (R51). -/
theorem step_of_answers {s t : State} {i : Instr} {rest : List Word} {code : ResultCode} {value : Word}
    {bytes : List Byte} (waiting : s.commands = encode i :: rest)
    (answers : Answers (exec i { s with commands := rest }) t code value bytes) :
    ∃ u, step s = .next u ∧ u.cfg = s.cfg ∧ u.buf = t.buf ∧ u.latch = t.latch ∧ u.commands = rest ∧
      contracts u = contracts s ++ [(code, value, bytes)] := by
  obtain ⟨cfg, commands, responses⟩ := answers.effect.frame
  obtain ⟨r, next, contract⟩ := answers.one_response
  refine ⟨t.pushResponse r, (stepRunsTheDecodedCommand s _ rest i waiting (decodeOfEncode i)).trans next, cfg, rfl,
    rfl, commands, ?_⟩
  rw [contracts, State.pushResponse_responses, responses, List.map_append, List.map_singleton, contract]
  rfl

/-- `i` answers `code` to the byte and puts it at the end of the buffer, and does not latch the framer out. -/
def Stores (i : Byte → Instr) (code : ResultCode) (s : State) (a : Byte) : Prop :=
  ∃ t, Answers (exec (i a) s) t code 0 [] ∧ t.buf = s.buf ++ [a] ∧ Unlatched t

/-- What a run of such commands leaves, the commands `rest` still waiting. -/
structure Stored (code : ResultCode) (bytes : List Byte) (rest : List Word) (s t : State) : Prop where
  cfg : t.cfg = s.cfg
  buf : t.buf = s.buf ++ bytes
  unlatched : Unlatched t
  commands : t.commands = rest
  contracts : contracts t = contracts s ++ List.replicate bytes.length (code, 0, [])

/-- While the buffer grows to no more than `whole`, the commands store byte after byte. -/
theorem run_stores {i : Byte → Instr} {code : ResultCode} {cfg : Config} {whole : List Byte}
    (stores : ∀ (u : State) (a : Byte), u.cfg = cfg → Unlatched u → u.buf ++ [a] <+: whole → Stores i code u a)
    {bytes : List Byte} {rest : List Word} {s : State} (built : s.cfg = cfg) (unlatched : Unlatched s)
    (part : s.buf ++ bytes <+: whole) (waiting : s.commands = (bytes.map i).map encode ++ rest) :
    ∃ t, Host.Core.run core bytes.length s = .next t ∧ Stored code bytes rest s t := by
  induction bytes generalizing s with
  | nil => exact ⟨s, rfl, rfl, (List.append_nil _).symm, unlatched, waiting, (List.append_nil _).symm⟩
  | cons a bytes ih =>
    rw [List.append_cons] at part
    obtain ⟨t, answers, grown, unlatched_t⟩ := stores { s with commands := (bytes.map i).map encode ++ rest } a built
      unlatched ((List.prefix_append _ bytes).trans part)
    obtain ⟨cfg_t, -, -⟩ := answers.effect.frame
    obtain ⟨u, next, cfg_u, buf_u, latch_u, commands_u, contracts_u⟩ := step_of_answers waiting answers
    rw [grown] at buf_u
    obtain ⟨v, ran, stored⟩ := ih (cfg_u.trans built) (unlatched_t.of_eq (cfg_u.trans cfg_t.symm) latch_u)
      (buf_u ▸ part) commands_u
    refine ⟨v, (run_succ next _).trans ran, stored.cfg.trans cfg_u, ?_, stored.unlatched, stored.commands, ?_⟩
    · rw [stored.buf, buf_u]
      exact (List.append_cons ..).symm
    · rw [stored.contracts, contracts_u, List.append_assoc]
      rfl

/-- What MAX_BUF allows is more than it is full at. -/
theorem not_full_of_admits {m : MaxBuf} {n k : Nat} (fits : m.Admits n) (lt : k < n) : m ≠ .finite k := by
  rintro rfl
  exact absurd fits (not_le.mpr lt)

/-- There is room for one byte more of what MAX_BUF allows. -/
theorem room_of_prefix {m : MaxBuf} {buf whole : List Byte} {a : Byte} (fits : m.Admits whole.length)
    (part : buf ++ [a] <+: whole) : m ≠ .finite buf.length := by
  have le := part.length_le
  rw [List.length_append, List.length_singleton] at le
  exact not_full_of_admits fits le

/-- R140. -/
theorem append_stores {s : State} {a : Byte} (unlatched : Unlatched s) (room : s.cfg.maxBuf ≠ .finite s.buf.length) :
    Stores .append .ok s a :=
  ⟨_, execAppend_answers s a, appended_of_not_full room a, unlatched⟩

/-- R141: while the frame is cut, RXB only stores. -/
theorem rxb_stores {s : State} {a : Byte} (unlatched : Unlatched s) (room : s.cfg.maxBuf ≠ .finite s.buf.length)
    (frame : CutFrame s.cfg.codec (s.buf ++ [a])) : Stores .rxb .incomplete s a := by
  have grown : (bufAppend s a).buf = s.buf ++ [a] := appended_of_not_full room a
  obtain ⟨asFeed, -⟩ := rxbIsAppendThenFeed
  obtain ⟨u, t, code, bytes, appends, feeds, receives⟩ := asFeed s a
  obtain ⟨rfl, -⟩ := appends.contract_unique (execAppend_answers s a)
  have waits := CutFrame.waits (s := bufAppend s a) (grown ▸ frame) unlatched
  obtain ⟨rfl, rfl, -, rfl⟩ := feeds.contract_unique waits
  exact ⟨_, receives, grown, .inl rfl⟩

/-- FEED reads an encoded payload behind garbage, to its last byte. -/
theorem feedResult_encodePayload {codec : Codec} {garbage : List Byte} {latch : Bool}
    (clear : latchAtFeed codec latch = false) (none : START ∉ garbage) (payload : List Byte) :
    feedResult codec (garbage ++ encodePayload codec payload) latch = feedReady false payload [] [] :=
  calc
    feedResult codec (garbage ++ encodePayload codec payload) latch
      = collect codec false (encodePayload codec payload) [] [] (payload.flatMap (encodeByte codec) ++ [STOP]) :=
        feedResult_start clear none _
    _ = collect codec false (encodePayload codec payload) payload [] [STOP] :=
        collect_verified (verified_flatMap_encodeByte codec payload) ..
    _ = feedReady false payload [] [] := collect_stop ..

/-- FEED-body on a buffer of garbage and an encoded payload delivers the payload (R148, R159). -/
theorem feedBody_delivers {s : State} {garbage payload : List Byte} (unlatched : Unlatched s) (none : START ∉ garbage)
    (holds : s.buf = garbage ++ encodePayload s.cfg.codec payload) (before : List Diag) :
    Answers (feedBody before s) { s with buf := [], latch := false } .frameReady 0 payload := by
  have result := feedResult_encodePayload (latchAtFeed_eq_false.mpr unlatched) none payload
  rw [← holds] at result
  exact feedBody_answers_of_eq result before

/-- A run that stores byte after byte, then a command that delivers all of them. -/
theorem run_delivers {s u t : State} {n : Nat} {code : ResultCode} {bytes payload : List Byte} {i : Instr}
    {rest : List Word} (empty : s.buf = []) (ran : Host.Core.run core n s = .next u)
    (stored : Stored code bytes (encode i :: rest) s u)
    (delivers : Answers (exec i { u with commands := rest }) t .frameReady 0 payload) (left : t.buf = [])
    (clear : t.latch = false) :
    ∃ v, Host.Core.run core (n + 1) s = .next v ∧
      v = { s with latch := false, commands := rest, responses := v.responses } ∧
      contracts v = contracts s ++ List.replicate bytes.length (code, 0, []) ++ [(.frameReady, 0, payload)] := by
  obtain ⟨v, next, cfg, buf, latch, commands, contracts⟩ := step_of_answers stored.commands delivers
  refine ⟨v, (run_add ran 1).trans (run_succ next 0), ?_, stored.contracts ▸ contracts⟩
  exact State.eq_of_fields (cfg.trans stored.cfg) (buf.trans (left.trans empty.symm)) (latch.trans clear) commands rfl

/-- RXB of STOP on a frame that lacks only that delivers it, where MAX_BUF allows the frame (R141, R148). -/
theorem rxb_stop_delivers {s : State} {payload : List Byte} (unlatched : Unlatched s)
    (fits : s.cfg.maxBuf.Admits (encodePayload s.cfg.codec payload).length)
    (holds : s.buf = openFrame s.cfg.codec payload) :
    Answers (exec (.rxb STOP) s) { s with buf := [], latch := false } .frameReady 0 payload := by
  rw [encodePayload_eq_openFrame, ← holds] at fits
  have grown : (bufAppend s STOP).buf = [] ++ encodePayload s.cfg.codec payload := by
    rw [List.nil_append, encodePayload_eq_openFrame, ← holds]
    exact appended_of_not_full (room_of_prefix fits (List.prefix_refl _)) STOP
  exact feedBody_delivers (s := bufAppend s STOP) unlatched List.not_mem_nil grown (appendDiags s.cfg.maxBuf s.buf)

/-- Settles O49: RXB stores the frame up to its STOP, and the RXB of STOP delivers it. -/
theorem roundTripPerByte : Obligations.RoundTripPerByte := by
  intro s payload rest empty unlatched fits waiting
  have frame_eq := encodePayload_eq_openFrame s.cfg.codec payload
  have length : (encodePayload s.cfg.codec payload).length = (openFrame s.cfg.codec payload).length + 1 := by
    rw [frame_eq, List.length_append, List.length_singleton]
  have stores (u : State) (a : Byte) (cfg : u.cfg = s.cfg) (unlatched_u : Unlatched u)
      (part : u.buf ++ [a] <+: openFrame s.cfg.codec payload) : Stores .rxb .incomplete u a := by
    have room := room_of_prefix (admits_mono fits (by omega)) part
    have nonempty : u.buf ++ [a] ≠ [] := List.append_ne_nil_of_right_ne_nil _ (List.cons_ne_nil a [])
    have frame := cutFrame_of_prefix nonempty part
    exact rxb_stores unlatched_u (cfg ▸ room) (cfg ▸ frame)
  obtain ⟨u, ran, stored⟩ := run_stores stores (bytes := openFrame s.cfg.codec payload)
    (rest := encode (.rxb STOP) :: rest) rfl unlatched (by rw [empty, List.nil_append])
    (by simpa [frame_eq, pseudoRxseq] using waiting)
  have holds : u.buf = openFrame u.cfg.codec payload := by rw [stored.buf, stored.cfg, empty, List.nil_append]
  have delivers := rxb_stop_delivers (s := { u with commands := rest }) stored.unlatched (stored.cfg ▸ fits) holds
  rw [length]
  exact run_delivers empty ran stored delivers rfl rfl

/-- Settles O50: APPEND stores garbage and frame, and FEED delivers it. -/
theorem roundTripBulkAfterGarbage : Obligations.RoundTripBulkAfterGarbage := by
  intro s garbage payload rest empty unlatched none fits waiting
  have stores (u : State) (a : Byte) (cfg : u.cfg = s.cfg) (unlatched_u : Unlatched u)
      (part : u.buf ++ [a] <+: garbage ++ encodePayload s.cfg.codec payload) : Stores .append .ok u a :=
    append_stores unlatched_u (cfg ▸ room_of_prefix fits part)
  obtain ⟨u, ran, stored⟩ := run_stores stores (bytes := garbage ++ encodePayload s.cfg.codec payload)
    (rest := encode .feed :: rest) rfl unlatched (by rw [empty, List.nil_append])
    (by simpa [pseudoBulk] using waiting)
  have holds : u.buf = garbage ++ encodePayload u.cfg.codec payload := by
    rw [stored.buf, stored.cfg, empty, List.nil_append]
  have delivers := feedBody_delivers (s := { u with commands := rest }) stored.unlatched none holds []
  exact run_delivers empty ran stored delivers rfl rfl

end Sys2Proof.Machine
end

section
/-! PROOFS. The assembler reads back the lines that commands are written as (R69). -/

namespace Sys2Proof.Machine

/-! ### Hex bytes -/

/-- A character of a mnemonic or a hex byte: no blank, and neither the comma between operands nor the semicolon
of a comment. -/
def isPlain (c : Char) : Bool := !isBlank c && c ≠ ',' && c ≠ ';'

theorem isPlain_iff {c : Char} : isPlain c = true ↔ isBlank c = false ∧ c ≠ ',' ∧ c ≠ ';' := by
  simp [isPlain, and_assoc]

theorem hexValue_hexDigit : ∀ n : BitVec 4, hexValue (hexDigits.getD n.toNat '0') = some n := by decide

theorem isPlain_hexDigit : ∀ n : BitVec 4, isPlain (hexDigits.getD n.toNat '0') = true := by decide

/-- The assembler reads back a byte's two digits. -/
theorem parseByte_renderByte (b : Byte) : parseByte (renderByte b) = some b := by
  have nibbles : b.extractLsb' 4 4 ++ b.extractLsb' 0 4 = b := by
    revert b
    decide +kernel
  simp only [renderByte, parseByte, hexValue_hexDigit]
  exact congrArg some nibbles

theorem isPlain_of_mem_renderByte {b : Byte} {c : Char} (mem : c ∈ renderByte b) : isPlain c = true := by
  simp only [renderByte, List.mem_cons, List.not_mem_nil, or_false] at mem
  obtain rfl | rfl | rfl | rfl := mem
  · decide
  · decide
  · exact isPlain_hexDigit _
  · exact isPlain_hexDigit _

/-! ### Operands -/

/-- A text without a comma is one piece. -/
theorem splitCommas_single {text : List Char} (plain : ',' ∉ text) : splitCommas text = [text] := by
  induction text with
  | nil => rfl
  | cons c text ih =>
    rw [List.mem_cons, not_or] at plain
    rw [splitCommas, if_neg (Ne.symm plain.1), ih plain.2]

/-- The first comma ends the first piece. -/
theorem splitCommas_append {text : List Char} (plain : ',' ∉ text) (rest : List Char) :
    splitCommas (text ++ ',' :: rest) = text :: splitCommas rest := by
  induction text with
  | nil => rw [List.nil_append, splitCommas, if_pos rfl]
  | cons c text ih =>
    rw [List.mem_cons, not_or] at plain
    rw [List.cons_append, splitCommas, if_neg (Ne.symm plain.1), ih plain.2]

/-- Only the blank in front goes. -/
theorem trimBlanks_blank {text : List Char} (plain : ∀ c ∈ text, isBlank c = false) :
    trimBlanks (' ' :: text) = text := by
  have kept (l : List Char) (solid : ∀ c ∈ l, isBlank c = false) : l.dropWhile isBlank = l :=
    List.dropWhile_eq_self_iff.mpr fun _ => by simp [solid]
  have front : (' ' :: text).dropWhile isBlank = text :=
    (List.dropWhile_cons_of_pos (by decide)).trans (kept text plain)
  rw [trimBlanks, front, kept _ (fun c mem => plain c (List.mem_reverse.mp mem)), List.reverse_reverse]

theorem parseByte_piece (b : Byte) : parseByte (trimBlanks (' ' :: renderByte b)) = some b := by
  have plain : ∀ c ∈ renderByte b, isBlank c = false := fun c mem =>
    (isPlain_iff.mp (isPlain_of_mem_renderByte mem)).1
  rw [trimBlanks_blank plain, parseByte_renderByte]

theorem comma_not_mem_piece (b : Byte) : ',' ∉ ' ' :: renderByte b := by
  intro mem
  obtain eq | mem := List.mem_cons.mp mem
  · exact absurd eq (by decide)
  · exact absurd (isPlain_of_mem_renderByte mem) (by decide)

/-- A text with more than blanks in it has its pieces read as bytes. -/
theorem parseOperands_of_mem {text : List Char} {c : Char} (mem : c ∈ text) (plain : isPlain c = true) :
    parseOperands text = (splitCommas text).mapM fun piece => parseByte (trimBlanks piece) := by
  refine if_neg fun blank => ?_
  have blank_c : isBlank c = true := List.all_eq_true.mp blank c mem
  obtain ⟨solid, -⟩ := isPlain_iff.mp plain
  exact Bool.false_ne_true (solid.symm.trans blank_c)

theorem zero_mem_renderByte (b : Byte) : '0' ∈ renderByte b := List.mem_cons_self

theorem parseOperands_one (a : Byte) : parseOperands (' ' :: renderByte a) = some [a] := by
  rw [parseOperands_of_mem (List.mem_cons_of_mem _ (zero_mem_renderByte a)) (by decide),
    splitCommas_single (comma_not_mem_piece a), List.mapM_cons, parseByte_piece]
  rfl

theorem parseOperands_two (a b : Byte) :
    parseOperands (' ' :: renderByte a ++ ',' :: ' ' :: renderByte b) = some [a, b] := by
  rw [parseOperands_of_mem (List.mem_append_left _ (List.mem_cons_of_mem _ (zero_mem_renderByte a))) (by decide),
    splitCommas_append (comma_not_mem_piece a), splitCommas_single (comma_not_mem_piece b), List.mapM_cons,
    List.mapM_cons, parseByte_piece, parseByte_piece]
  rfl

/-! ### Lines -/

/-- A line without a comment: its mnemonic, a blank, and its operands. -/
theorem assembleLine_eq {mnemonic text : List Char} (nonempty : mnemonic ≠ [])
    (plain : mnemonic.all isPlain = true) (noComment : ';' ∉ text) :
    assembleLine (mnemonic ++ ' ' :: text) = (parseOperands (' ' :: text)).bind (commandsOf mnemonic) := by
  have solid (c : Char) (mem : c ∈ mnemonic) : isBlank c = false :=
    (isPlain_iff.mp (List.all_eq_true.mp plain c mem)).1
  have kept : ∀ c ∈ mnemonic ++ ' ' :: text, decide (c ≠ ';') = true := by
    intro c mem
    rw [decide_eq_true_iff]
    rintro rfl
    obtain inMnemonic | blank | inText := by simpa only [List.mem_append, List.mem_cons] using mem
    · exact absurd (List.all_eq_true.mp plain _ inMnemonic) (by decide)
    · exact absurd blank (by decide)
    · exact noComment inText
  have uncommented : (mnemonic ++ ' ' :: text).takeWhile (fun c => decide (c ≠ ';')) = mnemonic ++ ' ' :: text :=
    List.takeWhile_eq_self_iff.mpr kept
  have flush : (mnemonic ++ ' ' :: text).dropWhile isBlank = mnemonic ++ ' ' :: text := by
    cases mnemonic with
    | nil => exact absurd rfl nonempty
    | cons c mnemonic => exact List.dropWhile_cons_of_neg (by simp [solid])
  have first : (mnemonic ++ ' ' :: text).takeWhile (fun c => !isBlank c) = mnemonic := by
    rw [List.takeWhile_append_of_pos (by simpa using solid), List.takeWhile_cons_of_neg (by decide), List.append_nil]
  have rest : (mnemonic ++ ' ' :: text).dropWhile (fun c => !isBlank c) = ' ' :: text := by
    rw [List.dropWhile_append_of_pos (by simpa using solid), List.dropWhile_cons_of_neg (by decide)]
  simp only [assembleLine, uncommented, flush, first, rest, if_neg nonempty]
  rfl

theorem semicolon_not_mem_renderByte (b : Byte) : ';' ∉ renderByte b := fun mem =>
  absurd (isPlain_of_mem_renderByte mem) (by decide)

/-- A line of one operand. -/
theorem assembleLine_one {mnemonic : List Char} (nonempty : mnemonic ≠ []) (plain : mnemonic.all isPlain = true)
    (a : Byte) : assembleLine (mnemonic ++ ' ' :: renderByte a) = commandsOf mnemonic [a] := by
  rw [assembleLine_eq nonempty plain (semicolon_not_mem_renderByte a), parseOperands_one]
  rfl

/-- A line of two operands. -/
theorem assembleLine_two {mnemonic : List Char} (nonempty : mnemonic ≠ []) (plain : mnemonic.all isPlain = true)
    (a b : Byte) :
    assembleLine (mnemonic ++ ' ' :: (renderByte a ++ ',' :: ' ' :: renderByte b)) = commandsOf mnemonic [a, b] := by
  have noComment : ';' ∉ renderByte a ++ ',' :: ' ' :: renderByte b := by
    simp [semicolon_not_mem_renderByte]
  rw [assembleLine_eq nonempty plain noComment, ← List.cons_append, parseOperands_two]
  rfl

/-- Settles O52: the bare mnemonics by running the assembler, the operands by their lines. -/
theorem assemblerReadsRenderedCommands : Obligations.AssemblerReadsRenderedCommands := by
  intro i legal
  cases i with
  | nop | reset | feed | txsof | txeof | stat => exact ⟨_, rfl, by decide⟩
  | rxb a => exact ⟨_, rfl, assembleLine_one (mnemonic := ['R', 'X', 'B']) (by decide) (by decide) a⟩
  | append a =>
    exact ⟨_, rfl, assembleLine_one (mnemonic := ['A', 'P', 'P', 'E', 'N', 'D']) (by decide) (by decide) a⟩
  | txd a => exact ⟨_, rfl, assembleLine_one (mnemonic := ['T', 'X', 'D']) (by decide) (by decide) a⟩
  | chk a => exact ⟨_, rfl, assembleLine_one (mnemonic := ['C', 'H', 'K']) (by decide) (by decide) a⟩
  | vfy a b => exact ⟨_, rfl, assembleLine_two (mnemonic := ['V', 'F', 'Y']) (by decide) (by decide) a b⟩
  | reservedB | reservedC | reservedD | reservedE | reservedF => cases legal

end Sys2Proof.Machine
end
